-- ==== Sys2Proof/Word.lean ====
section
/-! DEFINITION. The word types of ES-LCDKP (spec/00_scope.md R10: bit 0 is the least significant bit of
every value and no value is signed; spec/30_encoding.md R70: a command word has 16 bits). -/

namespace Sys2Proof

/-- A command word or a host register: 16 bits (R21, R70). -/
abbrev Word := BitVec 16

/-- A byte: a command byte, a character or a scan code. -/
abbrev Byte := BitVec 8

/-- A nibble: what one LCD transfer carries, a row pattern or a column bitmap. -/
abbrev Nibble := BitVec 4

/-- A row index 0..3, naming the source's rows 1..4 (R73). -/
abbrev RowIdx := BitVec 2

/-- A word offset in the host window (R51: a 2-bit offset). -/
abbrev Offset := BitVec 2

end Sys2Proof
end

