-- ==== Sys2Proof/Config.lean ====
section
/-! DEFINITION. What an implementation fixes: the constants of spec/00_scope.md R7, the parameters of R8 with
their defaults, and the two values nothing fixes (the column samples of R101 and the delay unit P_DU). -/

namespace Sys2Proof

/-- P_SCAN_LAYOUT (R8): which nibble of the scan code holds the row identity. -/
inductive ScanLayout where
  | rowHigh
  | rowLow
  deriving DecidableEq, Repr

/-- P_WRAP_POLICY (R8, R140): when PUTS sends WRAP_CMD. -/
inductive WrapPolicy where
  /-- Just before the 17th character. -/
  | lazy
  /-- Right after the 16th character. -/
  | eager
  deriving DecidableEq, Repr

/-- The parameters the source leaves open (R8). Every time is a minimum, in delay units. -/
structure Params where
  /-- P_T_SU: RS and data setup before E rises. -/
  tSu : Nat
  /-- P_T_EPW: E high time. -/
  tEpw : Nat
  /-- P_T_NIB: wait after E falls. -/
  tNib : Nat
  /-- P_T_SHORT: settle after an ordinary byte. -/
  tShort : Nat
  /-- P_T_LONG: settle after a clear or home command. -/
  tLong : Nat
  /-- P_LONG_CMDS: the command bytes that take P_T_LONG. -/
  longCmds : List Byte
  /-- P_T_PWR: wait at the start of LCD.INIT. -/
  tPwr : Nat
  /-- P_INIT_SEQ[1..5]: the bytes LCD.INIT sends. -/
  initSeq : Vector Byte 5
  /-- P_T_INIT[1..5]: the extra wait after each of them. -/
  tInit : Vector Nat 5
  /-- P_T_ROW: wait between driving a row and sampling the columns. -/
  tRow : Nat
  /-- P_SCAN_LAYOUT. -/
  layout : ScanLayout
  /-- P_ROW_ID: the row identity field of each row index. -/
  rowId : Vector Nibble 4
  /-- P_KEYMAP: the character of each key, row by row. -/
  keymap : Vector Byte 16
  /-- P_WRAP_POLICY. -/
  wrapPolicy : WrapPolicy
  deriving DecidableEq, Repr

namespace Config

/-- LINE_LEN (R7): characters before the wrap, as CHARCNT counts them. -/
abbrev lineLen : BitVec 6 := 16#6

/-- The longest string LCD.PUTS takes (R7 LINES × LINE_LEN, R73). -/
abbrev maxPuts : Nat := 32

/-- WRAP_CMD (R7, R56): moves the display cursor to the line-2 origin. -/
abbrev wrapCmd : Byte := 0xC0#8

/-- ALPHABET (R7) in ASCII (R13): `0`–`9`, `+`, `-`, `=`, `D`, `E`, `F`, in the order the source lists them. -/
def alphabet : Vector Byte 16 :=
  #v[0x30#8, 0x31#8, 0x32#8, 0x33#8, 0x34#8, 0x35#8, 0x36#8, 0x37#8,
     0x38#8, 0x39#8, 0x2B#8, 0x2D#8, 0x3D#8, 0x44#8, 0x45#8, 0x46#8]

/-- The default of every parameter of R8. The init bytes and the long commands are marked by the spec as
general knowledge, not in the source (93_implementation_defined.md K5, K6): PRESUMED there, safe for a claim
over all parameters, unsafe for a claim at the defaults (assumption 1). -/
def defaults : Params where
  tSu := 0
  tEpw := 1
  tNib := 0
  tShort := 1
  tLong := 2
  longCmds := [0x01#8, 0x02#8, 0x03#8]
  tPwr := 0
  initSeq := #v[0x28#8, 0x28#8, 0x0C#8, 0x06#8, 0x01#8]
  tInit := #v[0, 0, 0, 0, 0]
  tRow := 0
  layout := .rowHigh
  rowId := #v[0b0001#4, 0b0010#4, 0b0100#4, 0b1000#4]
  keymap := alphabet
  wrapPolicy := .lazy

/-- FREE VALUE: the n-th column sample of a keypad about which nothing is known (R101, R108: "The model
places no constraint on it"). No body: nothing in Lean can evaluate it (assumption 3, safe). -/
opaque columnDraw : Nat → Nibble

/-- FREE VALUE: P_DU, the seconds of one delay unit, OPEN in R8, a positive real (assumption 7, safe). -/
noncomputable opaque delayUnit : {x : ℝ // 0 < x}

/-- The least number of seconds a wait of `units` delay units lasts (R12). -/
noncomputable def seconds (units : Nat) : ℝ := units * delayUnit.val

end Config
end Sys2Proof
end

