-- ==== Sys2Proof/Syntax.lean ====
section
/-! DEFINITION. The operations of ES-LCDKP, one constructor for each row of spec/opcode_table.json
(spec/30_encoding.md R72). -/

namespace Sys2Proof

/-- One operation, its operands as the encoding's own fields (R73). -/
inductive Instr where
  /-- `NOP` (format FN, R180). -/
  | nop
  /-- `LCD.INIT` (format FN, R136). -/
  | lcdInit
  /-- `LCD.CMD v` (format FB, R134): imm8. -/
  | lcdCmd (v : Byte)
  /-- `LCD.DATA v` (format FB, R135): imm8. -/
  | lcdData (v : Byte)
  /-- `LCD.PUTS L` (format FL, R138): len6, legal values 0..32. -/
  | lcdPuts (len : BitVec 6)
  /-- `KEY.SCAN` (format FR, R106): row2, the row index. -/
  | keyScan (r : RowIdx)
  /-- `WAIT n` (format FT, R181): imm12 delay units. -/
  | wait (n : BitVec 12)
  /-- `PUTS.CHAR` (format FP, R139): the character and the ignored high byte of the payload word. -/
  | putsChar (c : Byte) (ignored : Byte)
  deriving DecidableEq, Repr

end Sys2Proof
end

