-- ==== Sys2Proof/WellFormed.lean ====
section
/-! DEFINITION. Which operations a command word can name. Every operand but one is legal at every value of
its field (spec/30_encoding.md R73, R74, R75). -/

namespace Sys2Proof

/-- The operand checks of R73: only LCD.PUTS has one, the length at most 32. -/
def Instr.wellFormed : Instr → Bool
  | .lcdPuts len => decide (len.toNat ≤ 32)
  | .nop | .lcdInit | .lcdCmd _ | .lcdData _ | .keyScan _ | .wait _ | .putsChar _ _ => true

/-- The "extra condition" of R72 on PUTS_REM: `payload` says whether PUTS_REM ≠ 0. PUTS.CHAR exists only
inside a payload window and every other operation only outside it. -/
def Instr.admitted (payload : Bool) : Instr → Bool
  | .putsChar _ _ => payload
  | .nop | .lcdInit | .lcdCmd _ | .lcdData _ | .lcdPuts _ | .keyScan _ | .wait _ => !payload

end Sys2Proof
end

