-- ==== Sys2Proof/Decode.lean ====
section
/-! DEFINITION. The command-word decoder of spec/30_encoding.md R71 and the encoder of R72 and R77. -/

namespace Sys2Proof

/-- Why a command word is rejected (spec/60_exceptions.md R202). -/
inductive DecodeError where
  /-- OP 0x7..0xF. -/
  | reservedOp
  /-- A nonzero bit in a must-be-zero field. -/
  | reservedBits
  /-- LCD.PUTS with len6 in 33..63. -/
  | putsTooLong
  deriving DecidableEq, Repr

/-- `w[lo+len-1:lo]` (R10). -/
def field (w : Word) (lo len : Nat) : BitVec len := w.extractLsb' lo len

/-- An operation when the must-be-zero field is 0, else the rejection of R74. -/
def unlessReserved {n : Nat} (mustBeZero : BitVec n) (i : Instr) : Except DecodeError Instr :=
  if mustBeZero = 0 then .ok i else .error .reservedBits

/-- Decoding of a word written while PUTS_REM = 0: the case table of R71, the fields of R70 and R73. For
LCD.PUTS the reserved-bits check comes before the length check (R203). -/
def decodeIdle (w : Word) : Except DecodeError Instr :=
  match field w 12 4 with
  | 0x0#4 => unlessReserved (field w 0 12) .nop
  | 0x1#4 => unlessReserved (field w 0 12) .lcdInit
  | 0x2#4 => unlessReserved (field w 8 4) (.lcdCmd (field w 0 8))
  | 0x3#4 => unlessReserved (field w 8 4) (.lcdData (field w 0 8))
  | 0x4#4 =>
    if field w 6 6 ≠ 0 then .error .reservedBits
    else if Config.maxPuts < (field w 0 6).toNat then .error .putsTooLong
    else .ok (.lcdPuts (field w 0 6))
  | 0x5#4 => unlessReserved (field w 2 10) (.keyScan (field w 0 2))
  | 0x6#4 => .ok (.wait (field w 0 12))
  | _ => .error .reservedOp

/-- Decoding of a word written while PUTS_REM ≠ 0: every word is a character (R75). -/
def decodePayload (w : Word) : Instr := .putsChar (field w 0 8) (field w 8 8)

/-- Decoding of a word written to CMD (R71). `payload` says whether PUTS_REM ≠ 0. -/
def decode (payload : Bool) (w : Word) : Except DecodeError Instr :=
  if payload then .ok (decodePayload w) else decodeIdle w

/-- The command word of an operation (R72, R77), its fields from the highest to the lowest. -/
def encode : Instr → Word
  | .nop => 0x0#4 ++ 0#12
  | .lcdInit => 0x1#4 ++ 0#12
  | .lcdCmd v => 0x2#4 ++ 0#4 ++ v
  | .lcdData v => 0x3#4 ++ 0#4 ++ v
  | .lcdPuts len => 0x4#4 ++ 0#6 ++ len
  | .keyScan r => 0x5#4 ++ 0#10 ++ r
  | .wait n => 0x6#4 ++ n
  | .putsChar c ignored => ignored ++ c

/-- What the decoder reads from the low `nbits` bits of `w` when no PUTS is active, as it is after reset: a
command word has exactly 16 bits and no byte order (R55, R70), so a longer instruction is refused. The row
PUTS.CHAR is never read here, since it needs PUTS_REM ≠ 0 (assumption 9). -/
def decodeTableWord (nbits w : Nat) : Option Instr :=
  if nbits ≤ 16 then (decode false (BitVec.ofNat 16 (w % 2 ^ nbits))).toOption else none

end Sys2Proof
end

