-- ==== Sys2Proof/Machine/State.lean ====
section
/-! DEFINITION. The state of ES-LCDKP (spec/10_state.md), the elementary steps its operations are made of
(spec/00_scope.md R5, R11), and what can stop a step: nothing. -/

namespace Sys2Proof.Machine

/-- One entry of LCD_LOG (R30): the LCD_RS and LCD_D[3:0] levels when LCD_E fell. -/
structure Transfer where
  rs : Bool
  nibble : Nibble
  deriving DecidableEq, Repr

/-- One entry of SCAN_LOG (R31): the row index and the column sample of a KEY.SCAN. -/
structure ScanEntry where
  row : RowIdx
  cols : Nibble
  deriving DecidableEq, Repr

/-- An elementary step of an operation: one statement of the pseudocode (R11). An operation is a finite
sequence of them (R5). -/
inductive Prim where
  /-- `LCD_RS <- b` -/
  | setRs (b : Bool)
  /-- `LCD_D[3:0] <- n` -/
  | setD (n : Nibble)
  /-- `LCD_E <- b`, with the LCD_LOG entry that a fall makes (R30). -/
  | setE (b : Bool)
  /-- `ROW[3:0] <- p` -/
  | setRow (p : Nibble)
  /-- `wait t` -/
  | wait (t : Nat)
  /-- The column sample of a scan of row `r`, its log entry and the write of KEYRES (R106). -/
  | scan (r : RowIdx)
  /-- `INIT_DONE <- 1` -/
  | setInitDone
  /-- `PUTS_REM <- n` -/
  | setPutsRem (n : BitVec 6)
  /-- `CHARCNT <- n` -/
  | setCharCnt (n : BitVec 6)
  /-- `CHARCNT <- CHARCNT + 1` -/
  | incCharCnt
  /-- `PUTS_REM <- PUTS_REM - 1` -/
  | decPutsRem
  /-- `if PUTS_REM == 0: CHARCNT <- 0` -/
  | endPuts
  deriving DecidableEq, Repr

/-- What the outside world sees, in order: the values presented on the output pins, the lower bound of each
wait, the samples, and the values the host reads back (R5, R12, R30; assumption 5). -/
inductive Event where
  | rs (b : Bool)
  | data (n : Nibble)
  | e (b : Bool)
  | row (p : Nibble)
  | wait (t : Nat)
  | sample (r : RowIdx) (c : Nibble)
  | hostRead (off : Offset) (v : Word)
  /-- RST was driven to this level while it acted as a reset: every output took its reset value. -/
  | rst (asserted : Bool)
  deriving DecidableEq, Repr

/-- What the outside world does to the block (R6, R52, R230, R231; assumptions 2, 4, 6). -/
inductive Input where
  /-- `HostRead(off)` -/
  | read (off : Offset)
  /-- `HostWrite(off, v)` -/
  | write (off : Offset) (v : Word)
  /-- A host write of `w` to CMD, looked at after the first `k` elementary steps of its operation. What
  comes next decides whether the operation ends or RST cuts it. -/
  | writePaused (w : Word) (k : Nat)
  /-- RST is driven to this level. -/
  | rst (asserted : Bool)
  deriving DecidableEq, Repr

/-- The state of the block with what surrounds it. Plain data. -/
structure State where
  /-- The parameters of R8: configuration, changed by no step (assumption 1). -/
  params : Params
  /-- Whether the input RST is asserted (R230). -/
  rst : Bool
  /-- KEYRES (R23). -/
  keyres : Word
  /-- ERR, STATUS[0] (R24). -/
  err : Bool
  /-- INIT_DONE, STATUS[1] (R24). -/
  initDone : Bool
  /-- CAUSE, STATUS[7:4] (R24). -/
  cause : BitVec 4
  /-- PUTS_REM, STATUS[13:8] (R25). -/
  putsRem : BitVec 6
  /-- CHARCNT (R26). -/
  charCnt : BitVec 6
  /-- LCD_D[3:0] (R28). -/
  lcdD : Nibble
  /-- LCD_RS (R28). -/
  lcdRs : Bool
  /-- LCD_E (R28). -/
  lcdE : Bool
  /-- LCD_RW (R28). -/
  lcdRw : Bool
  /-- ROW[3:0] (R29). -/
  row : Nibble
  /-- The operation in progress (R33): the elementary steps it has still to do. -/
  op : List Prim
  /-- LCD_LOG (R30), oldest entry first. -/
  lcdLog : List Transfer
  /-- SCAN_LOG (R31), oldest entry first. -/
  scanLog : List ScanEntry
  /-- The model's own: what the outside world does next (assumption 2). -/
  inputs : List Input
  /-- The model's own: column samples the environment has fixed in advance (assumption 3). -/
  colDraws : List Nibble
  /-- The model's own: how many free column samples were taken (assumption 3). -/
  drawCount : Nat
  /-- The model's own: the observations so far, oldest first (assumption 5). -/
  trace : List Event
  deriving DecidableEq, Repr

/-- The block right after reset (R33, R230), with the default parameters of R8 (assumption 1), RST
released, and nothing yet done by the outside world (assumptions 2, 3, 5). -/
def State.reset : State where
  params := Config.defaults
  rst := false
  keyres := 0x0000#16
  err := false
  initDone := false
  cause := 0#4
  putsRem := 0#6
  charCnt := 0#6
  lcdD := 0b0000#4
  lcdRs := false
  lcdE := false
  lcdRw := false
  row := 0b0000#4
  op := []
  lcdLog := []
  scanLog := []
  inputs := []
  colDraws := []
  drawCount := 0
  trace := []

/-- What stops the machine with a fault: nothing. The block has no trap, exception vector or interrupt
(R200), and a rejected word is a next state (R201). -/
inductive Fault where
  deriving DecidableEq, Repr

/-- What has no meaning in the model. -/
inductive Refusal where
  /-- Raised by an arm of `exec` for an instruction not modelled yet; no arm raises it now. Safe. -/
  | notModelled (mnemonic : String)
  deriving DecidableEq, Repr

end Sys2Proof.Machine
end

