-- ==== Sys2Proof/Machine/Operands.lean ====
section
/-! DEFINITION. The values the operations compute from their operands: nibbles of a byte, the settle delay, the
scan code and its table (spec/40_keypad.md R102 to R104, spec/41_lcd.md R132, R133, spec/42_control.md R185). -/

namespace Sys2Proof.Machine

/-- `v[7:4]` (R132). -/
def highNibble (v : Byte) : Nibble := v.extractLsb' 4 4

/-- `v[3:0]` (R132). -/
def lowNibble (v : Byte) : Nibble := v.extractLsb' 0 4

/-- The settle delay of R133: long only for a command byte of P_LONG_CMDS. -/
def settle (p : Params) (v : Byte) (rs : Bool) : Nat :=
  if rs = false ∧ v ∈ p.longCmds then p.tLong else p.tShort

/-- `onehot4(r)` (R10): only bit `r` set. -/
def onehot4 (r : RowIdx) : Nibble := 1#4 <<< r.toNat

/-- P_ROW_ID(r) (R8). -/
def rowIdOf (p : Params) (r : RowIdx) : Nibble := p.rowId[r.toNat]'r.isLt

/-- P_KEYMAP(i, j) (R8): the character of the key at row index `i`, column index `j`. -/
def keyAt (p : Params) (i j : RowIdx) : Byte :=
  p.keymap[4 * i.toNat + j.toNat]'(by have := i.isLt; have := j.isLt; omega)

/-- `pack(r, c)` (R102): row identity and column bitmap in disjoint nibbles of one byte. -/
def pack (p : Params) (r : RowIdx) (c : Nibble) : Byte :=
  match p.layout with
  | .rowHigh => rowIdOf p r ++ c
  | .rowLow => c ++ rowIdOf p r

/-- The four row or column indices. -/
def indices : List RowIdx := [0#2, 1#2, 2#2, 3#2]

/-- TABLE (R103): the 16 scan codes of a single key, each with its character, in one ordered mapping. -/
def scanTable (p : Params) : List (Byte × Byte) :=
  indices.flatMap fun i => indices.map fun j => (pack p i (onehot4 j), keyAt p i j)

/-- `lookup(code)` (R104). Where two entries had one code, which R9 excludes, the first would win
(assumption 12). -/
def lookup (p : Params) (code : Byte) : Option Byte := (scanTable p).lookup code

/-- The key a scan of row `r` that samples `c` resolves to (R106): idle columns give no key. -/
def resolveKey (p : Params) (r : RowIdx) (c : Nibble) : Option Byte :=
  if c = 0b0000#4 then none else lookup p (pack p r c)

end Sys2Proof.Machine
end

