-- ==== Sys2Proof/Machine/Flags.lean ====
section
/-! DEFINITION. The fields of KEYRES and STATUS and the flags in them (spec/10_state.md R23, R24, R32), and the
cause codes of spec/60_exceptions.md R202. -/

namespace Sys2Proof.Machine

/-- `{valid, 0b0, r[1:0], c[3:0], ch[7:0]}` (R106). -/
def keyresWord (valid : Bool) (r : RowIdx) (c : Nibble) (ch : Byte) : Word :=
  BitVec.ofBool valid ++ 0#1 ++ r ++ c ++ ch

/-- What KEY.SCAN of row `r` writes to KEYRES when it samples `c` (R106). -/
def scanResult (p : Params) (r : RowIdx) (c : Nibble) : Word :=
  match resolveKey p r c with
  | some x => keyresWord true r c x
  | none => keyresWord false r c 0x00#8

/-- KEYRES.CHAR, bits [7:0] (R23). -/
def keyresChar (w : Word) : Byte := w.extractLsb' 0 8

/-- KEYRES.COLS, bits [11:8] (R23). -/
def keyresCols (w : Word) : Nibble := w.extractLsb' 8 4

/-- KEYRES.ROW, bits [13:12] (R23). -/
def keyresRow (w : Word) : RowIdx := w.extractLsb' 12 2

/-- KEYRES.VALID, bit [15] (R23, R32). -/
def keyresValid (w : Word) : Bool := w.getLsbD 15

/-- The STATUS word `{0b00, PUTS_REM[5:0], CAUSE[3:0], 0b00, INIT_DONE, ERR}` (R24, R183). -/
def statusWord (s : State) : Word :=
  0b00#2 ++ s.putsRem ++ s.cause ++ 0b00#2 ++ BitVec.ofBool s.initDone ++ BitVec.ofBool s.err

/-- The cause code of a rejected word (R202). -/
def causeCode : DecodeError → BitVec 4
  | .reservedOp => 1#4
  | .reservedBits => 2#4
  | .putsTooLong => 3#4

end Sys2Proof.Machine
end

