-- ==== Sys2Proof/Machine/Ops.lean ====
section
/-! DEFINITION. The operations on the state that the meanings share: the pseudocode statements of
spec/00_scope.md R11, running a sequence of them, the error action (spec/60_exceptions.md R201), reset
(spec/70_reset_and_hazards.md R230, R231) and host reads (spec/42_control.md R182, R183). -/

namespace Sys2Proof.Machine

/-- `LCD_RS <- b` (R131). -/
def setRs (b : Bool) (s : State) : State :=
  { s with lcdRs := b, trace := s.trace ++ [.rs b] }

/-- `LCD_D[3:0] <- n` (R131). -/
def setD (n : Nibble) (s : State) : State :=
  { s with lcdD := n, trace := s.trace ++ [.data n] }

/-- The LCD_LOG entry of driving LCD_E to `b`: one each time LCD_E falls from 1 to 0, with the levels at
that instant (R30; assumption 8). -/
def transferOf (b : Bool) (s : State) : List Transfer :=
  if s.lcdE && !b then [⟨s.lcdRs, s.lcdD⟩] else []

/-- `LCD_E <- b`, with the log entry of a fall (R30, R131). -/
def setE (b : Bool) (s : State) : State :=
  { s with lcdE := b, lcdLog := s.lcdLog ++ transferOf b s, trace := s.trace ++ [.e b] }

/-- `ROW[3:0] <- p` (R100). -/
def setRow (p : Nibble) (s : State) : State :=
  { s with row := p, trace := s.trace ++ [.row p] }

/-- `wait t`: nothing changes; the lower bound is recorded (R12). -/
def waitFor (t : Nat) (s : State) : State :=
  { s with trace := s.trace ++ [.wait t] }

/-- The value `sample(COL)` draws next (R101, R108; assumption 3). -/
def nextSample (s : State) : Nibble :=
  match s.colDraws with
  | c :: _ => c
  | [] => Config.columnDraw s.drawCount

/-- Sample the columns for a scan of row `r`, log the scan and write KEYRES (R106, from `sample(COL)` on).
Each sample uses up its draw. -/
def scanColumns (r : RowIdx) (s : State) : State :=
  { s with
    keyres := scanResult s.params r (nextSample s)
    scanLog := s.scanLog ++ [⟨r, nextSample s⟩]
    colDraws := s.colDraws.tail
    drawCount := if s.colDraws.isEmpty then s.drawCount + 1 else s.drawCount
    trace := s.trace ++ [.sample r (nextSample s)] }

/-- `INIT_DONE <- 1` (R136). -/
def setInitDone (s : State) : State := { s with initDone := true }

/-- `PUTS_REM <- n` (R138). -/
def setPutsRem (n : BitVec 6) (s : State) : State := { s with putsRem := n }

/-- `CHARCNT <- n` (R138). -/
def setCharCnt (n : BitVec 6) (s : State) : State := { s with charCnt := n }

/-- `PUTS_REM <- PUTS_REM - 1`, only while it is not 0 (R139, R185; assumption 10). -/
def decPutsRem (s : State) : State :=
  { s with putsRem := if s.putsRem = 0#6 then 0#6 else s.putsRem - 1#6 }

/-- `if PUTS_REM == 0: CHARCNT <- 0`: the PUTS ends (R139). -/
def endPuts (s : State) : State :=
  { s with charCnt := if s.putsRem = 0#6 then 0#6 else s.charCnt }

/-- One elementary step (R11). -/
def runPrim (m : Prim) (s : State) : State :=
  match m with
  | .setRs b => setRs b s
  | .setD n => setD n s
  | .setE b => setE b s
  | .setRow p => setRow p s
  | .wait t => waitFor t s
  | .scan r => scanColumns r s
  | .setInitDone => setInitDone s
  | .setPutsRem n => setPutsRem n s
  | .setCharCnt n => setCharCnt n s
  | .incCharCnt => setCharCnt (s.charCnt + 1#6) s
  | .decPutsRem => decPutsRem s
  | .endPuts => endPuts s

/-- A sequence of elementary steps, in the order written (R11, R186). -/
def runPrims : List Prim → State → State
  | [], s => s
  | m :: ms, s => runPrims ms (runPrim m s)

/-- A whole operation, to its last wait: the host write that started it completes with it (R62). -/
def complete (program : List Prim) (s : State) : Host.Outcome State Fault Refusal :=
  .next (runPrims program s)

/-- An operation after its first `k` elementary steps, the rest still in progress (R33, R231). -/
def beginOp (program : List Prim) (k : Nat) (s : State) : State :=
  { runPrims (program.take k) s with op := program.drop k }

/-- The operation in progress runs to its end (R62). -/
def finishOp (s : State) : State := { runPrims s.op s with op := [] }

/-- TAKING AN EXCEPTION on this hardware: the error action `raise Error(cause)` (R201). It saves the cause
of the first error only, changes nothing else, and has no return (R207). -/
def raiseError (cause : BitVec 4) (s : State) : State :=
  { s with cause := if s.err then s.cause else cause, err := true }

/-- RST driven to `asserted`, with its effect (R230, R231): every piece of the block's state takes its
reset value, an operation in progress is abandoned, and LCD_LOG gets no entry for a fall of LCD_E. What is
outside the block stays: the parameters, what the environment does next, and the observations. -/
def resetBlock (asserted : Bool) (s : State) : State :=
  { State.reset with
    params := s.params
    rst := asserted
    inputs := s.inputs
    colDraws := s.colDraws
    drawCount := s.drawCount
    trace := s.trace ++ [.rst asserted] }

/-- RST released: a reset if RST was asserted (R230). DESIGN CHOICE: else nothing, since the level does not change
(assumption 6). -/
def releaseRst (s : State) : State := if s.rst then resetBlock false s else s

/-- What a host read of an offset returns (R21, R182, R183). -/
def readWindow (off : Offset) (s : State) : Word :=
  match off with
  | 1#2 => s.keyres
  | 2#2 => statusWord s
  | _ => 0x0000#16

/-- `HostRead(off)`: the value goes to the host and nothing changes (R53, R182, R183). -/
def hostRead (off : Offset) (s : State) : State :=
  { s with trace := s.trace ++ [.hostRead off (readWindow off s)] }

/-- The input at the head of `inputs` is used up. -/
def dropInput (s : State) : State := { s with inputs := s.inputs.tail }

/-- A host write of `w` to CMD is what the outside world does next. -/
def offerWrite (w : Word) (s : State) : State := { s with inputs := .write 0#2 w :: s.inputs }

/-- Whether a PUTS is active, so that the next word is a character (R25, R71). -/
def inPayload (s : State) : Bool := decide (s.putsRem ≠ 0#6)

end Sys2Proof.Machine
end

