-- ==== Sys2Proof/Machine/Control.lean ====
section
/-! DEFINITION. The control family (spec/42_control.md): NOP and WAIT. -/

namespace Sys2Proof.Machine

/-- `NOP` (R180): nothing, and no wait. -/
def nopProgram (_s : State) : List Prim := []

/-- `WAIT n` (R181): `wait n`, the operand zero-extended (R73). -/
def waitProgram (n : BitVec 12) (_s : State) : List Prim := [.wait n.toNat]

/-- `NOP` (R180). -/
def execNop (s : State) : Host.Outcome State Fault Refusal := complete (nopProgram s) s

/-- `WAIT n` (R181). -/
def execWait (n : BitVec 12) (s : State) : Host.Outcome State Fault Refusal :=
  complete (waitProgram n s) s

end Sys2Proof.Machine
end

