-- ==== Sys2Proof/Machine/Keypad.lean ====
section
/-! DEFINITION. The keypad family (spec/40_keypad.md): KEY.SCAN. -/

namespace Sys2Proof.Machine

/-- `KEY.SCAN` of row index `r` (R106): drive the row, wait, sample, log, write KEYRES. -/
def keyScanProgram (r : RowIdx) (s : State) : List Prim :=
  [.setRow (onehot4 r), .wait s.params.tRow, .scan r]

/-- `KEY.SCAN` (R106). -/
def execKeyScan (r : RowIdx) (s : State) : Host.Outcome State Fault Refusal :=
  complete (keyScanProgram r s) s

end Sys2Proof.Machine
end

