-- ==== Sys2Proof/Machine/Lcd.lean ====
section
/-! DEFINITION. The LCD family (spec/41_lcd.md): framing, LCD.CMD, LCD.DATA, LCD.INIT, LCD.PUTS, PUTS.CHAR.
Each operation is its program, the finite sequence of elementary steps its pseudocode gives (R5). -/

namespace Sys2Proof.Machine

/-- `NIB(rs, n)` (R131). Its `log (rs, n)` is the entry that `LCD_E <- 0` makes (assumption 8). -/
def nibProgram (p : Params) (rs : Bool) (n : Nibble) : List Prim :=
  [.setRs rs, .setD n, .wait p.tSu, .setE true, .wait p.tEpw, .setE false, .wait p.tNib]

/-- `SEND(v, rs)` (R132): high nibble first, then the low nibble, then the settle delay. -/
def sendProgram (p : Params) (v : Byte) (rs : Bool) : List Prim :=
  nibProgram p rs (highNibble v) ++ nibProgram p rs (lowNibble v) ++ [.wait (settle p v rs)]

/-- `LCD.CMD v` (R134): `SEND(v, 0)`. -/
def lcdCmdProgram (v : Byte) (s : State) : List Prim := sendProgram s.params v false

/-- `LCD.DATA v` (R135): `SEND(v, 1)`. -/
def lcdDataProgram (v : Byte) (s : State) : List Prim := sendProgram s.params v true

/-- Round `k` of LCD.INIT's loop (R136): the byte with its settle, then its extra wait. -/
def initRound (p : Params) (k : Fin 5) : List Prim :=
  sendProgram p p.initSeq[k] false ++ [.wait p.tInit[k]]

/-- `LCD.INIT` (R136, R137). -/
def lcdInitProgram (s : State) : List Prim :=
  .wait s.params.tPwr ::
    (initRound s.params 0 ++ initRound s.params 1 ++ initRound s.params 2 ++ initRound s.params 3 ++
      initRound s.params 4 ++ [.setInitDone])

/-- `LCD.PUTS L` (R138): an empty string has no effect, else the payload window opens. -/
def lcdPutsProgram (len : BitVec 6) (_s : State) : List Prim :=
  if len = 0#6 then [] else [.setPutsRem len, .setCharCnt 0#6]

/-- WRAP_CMD before the character (R139, R140): LAZY, when 16 characters were written. -/
def wrapsBefore (s : State) : Bool :=
  decide (s.params.wrapPolicy = .lazy ∧ s.charCnt = Config.lineLen)

/-- WRAP_CMD after the character (R139, R140): EAGER, when it is the 16th. CHARCNT is tested after its
increment, and nothing else changes it during the operation (assumption 10). -/
def wrapsAfter (s : State) : Bool :=
  decide (s.params.wrapPolicy = .eager ∧ s.charCnt + 1#6 = Config.lineLen)

/-- `SEND(0xC0, 0)` where a wrap is due (R139). -/
def wrapProgram (p : Params) (due : Bool) : List Prim :=
  if due then sendProgram p Config.wrapCmd false else []

/-- `PUTS.CHAR c` (R139). -/
def putsCharProgram (c : Byte) (s : State) : List Prim :=
  wrapProgram s.params (wrapsBefore s) ++ sendProgram s.params c true ++ [.incCharCnt] ++
    wrapProgram s.params (wrapsAfter s) ++ [.decPutsRem, .endPuts]

/-- `LCD.CMD v` (R134). -/
def execLcdCmd (v : Byte) (s : State) : Host.Outcome State Fault Refusal :=
  complete (lcdCmdProgram v s) s

/-- `LCD.DATA v` (R135). -/
def execLcdData (v : Byte) (s : State) : Host.Outcome State Fault Refusal :=
  complete (lcdDataProgram v s) s

/-- `LCD.INIT` (R136). -/
def execLcdInit (s : State) : Host.Outcome State Fault Refusal :=
  complete (lcdInitProgram s) s

/-- `LCD.PUTS L` (R138). -/
def execLcdPuts (len : BitVec 6) (s : State) : Host.Outcome State Fault Refusal :=
  complete (lcdPutsProgram len s) s

/-- `PUTS.CHAR c` (R139). The payload word's high byte has no effect (R75). -/
def execPutsChar (c : Byte) (_ignored : Byte) (s : State) : Host.Outcome State Fault Refusal :=
  complete (putsCharProgram c s) s

end Sys2Proof.Machine
end

