-- ==== Sys2Proof/Machine/Dispatch.lean ====
section
/-! DEFINITION. One arm for each operation of spec/opcode_table.json. -/

namespace Sys2Proof.Machine

def exec (i : Instr) (s : State) : Host.Outcome State Fault Refusal :=
  match i with
  | .nop => Sys2Proof.Machine.execNop s
  | .lcdInit => Sys2Proof.Machine.execLcdInit s
  | .lcdCmd v => Sys2Proof.Machine.execLcdCmd v s
  | .lcdData v => Sys2Proof.Machine.execLcdData v s
  | .lcdPuts len => Sys2Proof.Machine.execLcdPuts len s
  | .keyScan r => Sys2Proof.Machine.execKeyScan r s
  | .wait n => Sys2Proof.Machine.execWait n s
  | .putsChar c ignored => Sys2Proof.Machine.execPutsChar c ignored s

end Sys2Proof.Machine
end

