-- ==== Sys2Proof/Machine/Access.lean ====
section
/-! DEFINITION. What a host access or RST does to the block (spec/20_memory.md R53, R57, R62,
spec/30_encoding.md R71, spec/42_control.md R184, spec/70_reset_and_hazards.md R230, R231). -/

namespace Sys2Proof.Machine

/-- The program of an operation: the elementary steps that `exec` runs to their end. -/
def programOf (i : Instr) (s : State) : List Prim :=
  match i with
  | .nop => nopProgram s
  | .lcdInit => lcdInitProgram s
  | .lcdCmd v => lcdCmdProgram v s
  | .lcdData v => lcdDataProgram v s
  | .lcdPuts len => lcdPutsProgram len s
  | .keyScan r => keyScanProgram r s
  | .wait n => waitProgram n s
  | .putsChar c _ => putsCharProgram c s

/-- A host write of `w` to CMD (R71): the decoded operation runs, or the word is rejected (R201). -/
def acceptWord (w : Word) (s : State) : Host.Outcome State Fault Refusal :=
  match decode (inPayload s) w with
  | .ok i => exec i s
  | .error e => .next (raiseError (causeCode e) s)

/-- A host write of `w` to CMD, looked at after `k` elementary steps. A rejected word has no steps. -/
def acceptPaused (w : Word) (k : Nat) (s : State) : Host.Outcome State Fault Refusal :=
  match decode (inPayload s) w with
  | .ok i => .next (beginOp (programOf i s) k s)
  | .error e => .next (raiseError (causeCode e) s)

/-- A host write (R53, R184): offsets 1 to 3 ignore it, and so does a block held in reset, whose every
piece of state keeps its reset value while RST is asserted (R230; assumption 6). -/
def hostWrite (off : Offset) (v : Word) (s : State) : Host.Outcome State Fault Refusal :=
  if s.rst then .next s
  else match off with
    | 0#2 => acceptWord v s
    | _ => .next s

/-- One input with no operation in progress. -/
def takeInput (x : Input) (s : State) : Host.Outcome State Fault Refusal :=
  match x with
  | .read off => .next (hostRead off s)
  | .write off v => hostWrite off v s
  | .writePaused w k => if s.rst then .next s else acceptPaused w k s
  | .rst true => .next (resetBlock true s)
  | .rst false => .next (releaseRst s)

/-- What happens next (R57, R62, R231). RST acts at once, also in the middle of an operation. Else an
operation in progress runs to its end before any other input is taken. Else the next input is taken, and
with none the block idles and keeps every level (R28; assumption 2). -/
def advance (s : State) : Host.Outcome State Fault Refusal :=
  match s.inputs, s.op with
  | .rst true :: _, _ => .next (resetBlock true (dropInput s))
  | _, _ :: _ => .next (finishOp s)
  | x :: _, [] => takeInput x (dropInput s)
  | [], [] => .next s

end Sys2Proof.Machine
end

