-- ==== Sys2Proof/Machine/Step.lean ====
section
/-! DEFINITION. One step of the machine: one host access, one RST level, or the end of an operation in
progress (assumptions 2, 4). -/

namespace Sys2Proof.Machine

/-- One step. It always answers a next state (R200). -/
def step (s : State) : Host.Outcome State Fault Refusal := advance s

/-- `s` with a host write of the word `w` to CMD as the very next input, RST released and no operation in
progress, so that the next step runs it (assumption 2). `nbits` is 16 or less: a command word has 16 bits. -/
def State.withFetchWord (s : State) (nbits w : Nat) : State :=
  offerWrite (BitVec.ofNat 16 (w % 2 ^ nbits)) { s with rst := false, op := [] }

end Sys2Proof.Machine
end

