-- ==== Sys2Proof/Machine/Asm.lean ====
section
/-! DEFINITION. The assembler notation of spec/30_encoding.md: statements (R77), pseudo-instructions and their
expansions into host actions (R78). Host software, not part of the block's step. -/

namespace Sys2Proof.Machine

/-- A statement of R77 or R78. -/
inductive Stmt where
  /-- One command word. -/
  | op (i : Instr)
  /-- `.CHAR c`: a payload word, its high byte 0. -/
  | char (c : Byte)
  /-- `KEY.SCAN k` with the source's row number `k` = 1..4. -/
  | scanRow (k : Nat)
  /-- `RD` of an offset. -/
  | rd (off : Offset)
  /-- `WR off, w`. -/
  | wr (off : Offset) (w : Word)
  /-- `LCD.PUTS "s"`. -/
  | puts (s : List Byte)
  /-- `LCD.LINE2`. -/
  | line2
  /-- `LCD.CLEAR`. -/
  | clear
  /-- `LCD.HOME`. -/
  | home
  /-- `KEY.SWEEP`. -/
  | sweep
  deriving DecidableEq, Repr

/-- The host write of an operation's command word. -/
def writeOf (i : Instr) : Input := .write 0#2 (encode i)

/-- The host write of a payload word (R77 `.CHAR c`). -/
def writeChar (c : Byte) : Input := writeOf (.putsChar c 0x00#8)

/-- The host's writes for `LCD.PUTS "s"` (R78): the header, then the characters. -/
def writePuts (s : List Byte) : List Input :=
  writeOf (.lcdPuts (BitVec.ofNat 6 s.length)) :: s.map writeChar

/-- One round of `KEY.SWEEP` (R78): scan a row, read KEYRES. -/
def sweepRow (r : RowIdx) : List Input := [writeOf (.keyScan r), .read 1#2]

/-- The expansion of a statement (R77, R78). The assembler refuses an operand outside its range and a string
longer than 32 bytes. -/
def expand : Stmt → Option (List Input)
  | .op i => if i.wellFormed && i.admitted false then some [writeOf i] else none
  | .char c => some [writeChar c]
  | .scanRow k => if 1 ≤ k ∧ k ≤ 4 then some [writeOf (.keyScan (BitVec.ofNat 2 (k - 1)))] else none
  | .rd off => some [.read off]
  | .wr off w => some [.write off w]
  | .puts s => if s.length ≤ Config.maxPuts then some (writePuts s) else none
  | .line2 => some [writeOf (.lcdCmd Config.wrapCmd)]
  | .clear => some [writeOf (.lcdCmd 0x01#8)]
  | .home => some [writeOf (.lcdCmd 0x02#8)]
  | .sweep => some (indices.flatMap sweepRow)

end Sys2Proof.Machine
end

