-- ==== Sys2Proof/Machine/Display.lean ====
section
/-! DEFINITION. The informative display model of spec/41_lcd.md R143: an observer of LCD_LOG outside the block
(spec/10_state.md R34). No step reads it. It describes only an initialised display whose nibble pairs are
aligned, and the spec marks all of it but the meaning of 0xC0 as general knowledge (assumption 13). -/

namespace Sys2Proof.Machine

/-- The bytes a display in aligned 4-bit mode takes from transfers: pairs of nibbles, the first one high. -/
def bytesOf : List Transfer → List (Bool × Byte)
  | h :: l :: rest => (h.rs, h.nibble ++ l.nibble) :: bytesOf rest
  | _ => []

/-- What the display holds: the cursor address and the characters written, the latest first. -/
structure Display where
  cursor : BitVec 7
  cells : List (BitVec 7 × Byte)
  deriving DecidableEq, Repr

/-- The display after clear: blank, the cursor at 0x00. -/
def Display.blank : Display := ⟨0x00#7, []⟩

/-- What stands at an address: the last character written there, else a blank (a space, 0x20). -/
def Display.charAt (d : Display) (a : BitVec 7) : Byte := (d.cells.lookup a).getD 0x20#8

/-- The display takes one byte (R143): data is written at the cursor, which then increments; command 0x80|a
sets the cursor; 0x01 clears; 0x02 and 0x03 home. DESIGN CHOICE, unsafe (assumption 13): R143 says only that the
cursor increments, and past 0x7F this one wraps to 0x00; and R143 is silent on every other command byte (0x00 and
0x04 to 0x7F), which here changes neither the cursor nor the characters. -/
def Display.take (d : Display) : Bool × Byte → Display
  | (true, v) => ⟨d.cursor + 1, (d.cursor, v) :: d.cells⟩
  | (false, v) =>
    if v.getLsbD 7 then { d with cursor := v.extractLsb' 0 7 }
    else if v = 0x01#8 then .blank
    else if v = 0x02#8 ∨ v = 0x03#8 then { d with cursor := 0x00#7 }
    else d

/-- The display after a sequence of transfers. -/
def Display.after (d : Display) (log : List Transfer) : Display := (bytesOf log).foldl Display.take d

/-- The address of the k-th character place of the 2×16 display (R143): line 1 at 0x00, line 2 at 0x40. -/
def placeOf (k : Nat) : BitVec 7 :=
  if k < 16 then BitVec.ofNat 7 k else 0x40#7 + BitVec.ofNat 7 (k - 16)

end Sys2Proof.Machine
end

