-- ==== Sys2Proof/Machine/Timing.lean ====
section
/-! DEFINITION. Time as lower bounds in delay units (spec/00_scope.md R12, spec/70_reset_and_hazards.md R247,
R248). Nothing here has an upper bound and no step reads it (assumption 7). -/

namespace Sys2Proof.Machine

/-- The lower bound one observation carries. -/
def eventUnits : Event → Nat
  | .wait t => t
  | .rs _ | .data _ | .e _ | .row _ | .sample _ _ | .hostRead _ _ | .rst _ => 0

/-- The lower bounds of a sequence of observations add (R181, R185). -/
def waitUnits (es : List Event) : Nat := (es.map eventUnits).sum

/-- N = P_T_SU + P_T_EPW + P_T_NIB: the minimum time of one nibble (R247). -/
def nibbleUnits (p : Params) : Nat := p.tSu + p.tEpw + p.tNib

/-- S(v, rs) = 2N + settle(v, rs): the minimum time of one SEND (R247). -/
def sendUnits (p : Params) (v : Byte) (rs : Bool) : Nat := 2 * nibbleUnits p + settle p v rs

/-- The minimum duration of each operation, the table of R247. A rejected word and a host read take 0. DEDUCED: the
wrap of PUTS.CHAR takes the settle delay of R133 for 0xC0, the table's P_T_SHORT where 0xC0 is not in P_LONG_CMDS
(assumption 7). -/
def minDuration (i : Instr) (s : State) : Nat :=
  match i with
  | .nop | .lcdPuts _ => 0
  | .lcdCmd v => sendUnits s.params v false
  | .lcdData v => sendUnits s.params v true
  | .lcdInit =>
    s.params.tPwr +
      ((List.finRange 5).map fun k =>
        sendUnits s.params s.params.initSeq[k] false + s.params.tInit[k]).sum
  | .putsChar c _ =>
    sendUnits s.params c true +
      if wrapsBefore s || wrapsAfter s then sendUnits s.params Config.wrapCmd false else 0
  | .keyScan _ => s.params.tRow
  | .wait n => n.toNat

end Sys2Proof.Machine
end

