-- ==== Sys2Proof/Safety.lean ====
section
/-! DEFINITION. The terms claims are made in: the parameter constraints of spec/00_scope.md R9, the invariants
of spec/10_state.md R35, what the observations say the logs must hold, and what timing may change. -/

namespace Sys2Proof.Machine

/-- The constraints on the parameters that R8's types and R9 allow a model to assume. -/
def validParams (p : Params) : Prop :=
  1 ≤ p.tEpw ∧ 1 ≤ p.tShort ∧ p.tShort < p.tLong ∧
  p.initSeq[4] ∈ p.longCmds ∧
  (p.keymap.toList.Nodup ∧ ∀ x ∈ p.keymap.toList, x ∈ Config.alphabet.toList) ∧
  (p.rowId.toList.Nodup ∧ ∀ x ∈ p.rowId.toList, x ≠ 0#4)

/-- Exactly one bit is set (R35(e)). -/
def oneHot (n : Nibble) : Prop := ∃ r : RowIdx, n = onehot4 r

/-- The invariants of R35 for a state between operations: (a), (b), the bound that (c) gives together with
R138's L ≤ 32, (d), (e) and (f). -/
structure Settled (s : State) : Prop where
  remLe : s.putsRem.toNat ≤ 32
  cntLe : s.charCnt.toNat ≤ 32
  sumLe : s.charCnt.toNat + s.putsRem.toNat ≤ 32
  cntZero : s.putsRem = 0#6 → s.charCnt = 0#6
  strobeLow : s.lcdE = false
  rowShape : s.row = 0#4 ∨ oneHot s.row
  writeOnly : s.lcdRw = false

/-- R35 over the whole machine: it holds between operations, and of an operation in progress once that
operation has run to its end. -/
def StateInv (s : State) : Prop := Settled (finishOp s)

/-- The error fields agree (R24, R201, R202): CAUSE is 0 exactly while ERR is 0, and never above 3. -/
def ErrorFields (s : State) : Prop := (s.err = false ↔ s.cause = 0#4) ∧ s.cause.toNat ≤ 3

/-- KEYRES holds the result of the most recent KEY.SCAN, or its reset value (R23). -/
def KeyresIsLastScan (s : State) : Prop :=
  s.keyres = match s.scanLog.getLast? with
    | none => 0x0000#16
    | some e => scanResult s.params e.row e.cols

/-- What an observer of the pins can tell: their levels and the two logs. -/
structure PinView where
  rs : Bool
  data : Nibble
  e : Bool
  row : Nibble
  lcd : List Transfer
  scans : List ScanEntry
  deriving DecidableEq, Repr

/-- Every line quiet and nothing logged, as reset leaves it (R33). -/
def PinView.quiet : PinView := ⟨false, 0#4, false, 0#4, [], []⟩

/-- What one observation does to the view. A fall of E is one transfer of the levels at that instant (R30), a
sample is one scan (R31), and RST quiets every line without a transfer (R231). -/
def PinView.see (v : PinView) : Event → PinView
  | .rs b => { v with rs := b }
  | .data n => { v with data := n }
  | .e b => { v with e := b, lcd := if v.e && !b then v.lcd ++ [⟨v.rs, v.data⟩] else v.lcd }
  | .row p => { v with row := p }
  | .sample r c => { v with scans := v.scans ++ [⟨r, c⟩] }
  | .rst _ => .quiet
  | .wait _ | .hostRead _ _ => v

/-- The view of a state's own pins and logs. -/
def viewOf (s : State) : PinView := ⟨s.lcdRs, s.lcdD, s.lcdE, s.row, s.lcdLog, s.scanLog⟩

/-- The pins and logs are what the observations say, seen from a quiet start. -/
def TraceExplains (s : State) : Prop := s.trace.foldl PinView.see .quiet = viewOf s

/-- The transfers of one byte (R132, R141): high nibble, then low nibble, with one mode. -/
def byteLog (rs : Bool) (v : Byte) : List Transfer := [⟨rs, highNibble v⟩, ⟨rs, lowNibble v⟩]

/-- Whether a string of `n` characters sends WRAP_CMD (R140, R141). -/
def wrapsText (w : WrapPolicy) (n : Nat) : Bool :=
  match w with
  | .lazy => decide (17 ≤ n)
  | .eager => decide (16 ≤ n)

/-- The transfers of `LCD.PUTS "s"` (R141). -/
def putsLog (w : WrapPolicy) (s : List Byte) : List Transfer :=
  (s.take 16).flatMap (byteLog true) ++
    (if wrapsText w s.length then byteLog false Config.wrapCmd else []) ++
    (s.drop 16).flatMap (byteLog true)

/-- The parameters with everything that only sets a duration taken out: the times, and which command bytes
settle long (R12, R133, R241). -/
def untimedParams (p : Params) : Params :=
  { p with
    tSu := 0, tEpw := 0, tNib := 0, tShort := 0, tLong := 0, longCmds := []
    tPwr := 0, tInit := Vector.replicate 5 0, tRow := 0 }

/-- An elementary step without its duration. -/
def untimedPrim : Prim → Prim
  | .wait _ => .wait 0
  | m => m

/-- An observation without its duration. -/
def untimedEvent : Event → Event
  | .wait _ => .wait 0
  | e => e

/-- A state with every duration taken out: registers, pins, logs and inputs are as they were. -/
def untimed (s : State) : State :=
  { s with
    params := untimedParams s.params
    op := s.op.map untimedPrim
    trace := s.trace.map untimedEvent }

/-- The observations of one nibble transfer (R131): present, strobe, hold. -/
def nibEvents (p : Params) (rs : Bool) (n : Nibble) : List Event :=
  [.rs rs, .data n, .wait p.tSu, .e true, .wait p.tEpw, .e false, .wait p.tNib]

/-- The observations of sending one byte and letting it settle for `t` units (R132). -/
def byteEvents (p : Params) (rs : Bool) (v : Byte) (t : Nat) : List Event :=
  nibEvents p rs (highNibble v) ++ nibEvents p rs (lowNibble v) ++ [.wait t]

/-- The observations of a command byte, with the settle delay of R133. -/
def cmdEvents (p : Params) (v : Byte) : List Event :=
  byteEvents p false v (if v ∈ p.longCmds then p.tLong else p.tShort)

/-- The observations of a character, which always settles short (R133). -/
def dataEvents (p : Params) (v : Byte) : List Event := byteEvents p true v p.tShort

/-- `popcount` of a nibble (R10). -/
def popcount (n : Nibble) : Nat := ((List.range 4).filter fun j => n.getLsbD j).length

/-- Reads observations as a display on the bus does: the level of E, as long as RS and LCD_D changed only while E
was low (R130). -/
def busSee : Option Bool → Event → Option Bool
  | some e, .rs _ => if e then none else some e
  | some e, .data _ => if e then none else some e
  | some _, .e b => some b
  | some _, .rst _ => some false
  | some e, .row _ | some e, .wait _ | some e, .sample _ _ | some e, .hostRead _ _ => some e
  | none, _ => none

/-- RS and LCD_D changed only while LCD_E = 0, up to the end of the operation in progress, which leaves LCD_E
low (R130, R35(d)). -/
def BusDiscipline (s : State) : Prop :=
  (finishOp s).trace.foldl busSee (some false) = some false

/-- The block as reset leaves it, with what is outside it as in `s` (R33, R230). -/
def quietBlock (s : State) : State :=
  { State.reset with
    params := s.params, rst := s.rst, inputs := s.inputs, colDraws := s.colDraws
    drawCount := s.drawCount, trace := s.trace }

/-- While RST is asserted every piece of state has its reset value (R230). -/
def HeldQuiet (s : State) : Prop := s.rst = true → s = quietBlock s

end Sys2Proof.Machine
end

