-- ==== Sys2Proof/Certificates/Slice0/Obligations.lean ====
section
/-! DEFINITION. The statements for the provers. Each formalises a rule of spec/, or is marked as derived or as the
model's own choice. -/

open Sys2Proof Sys2Proof.Machine

/-! ## Reset -/

/-- R33: the reset value of every piece of state; the windows of the host read 0. -/
def Obligations.ResetStateIsAllZeroAndEmpty : Prop :=
  State.reset.keyres = 0x0000#16 ∧ statusWord State.reset = 0x0000#16 ∧
  (State.reset.err = false ∧ State.reset.initDone = false ∧ State.reset.cause = 0#4) ∧
  State.reset.putsRem = 0#6 ∧ State.reset.charCnt = 0#6 ∧
  State.reset.lcdD = 0b0000#4 ∧ State.reset.lcdRs = false ∧ State.reset.lcdE = false ∧
  State.reset.lcdRw = false ∧ State.reset.row = 0b0000#4 ∧
  State.reset.lcdLog = [] ∧ State.reset.scanLog = [] ∧ State.reset.op = []

/-- R231, with the reset values of R230: RST asserted as the next input resets the block at once, whatever
operation is in progress. That no further step of it happens and no transfer is logged shows in the trace (RST
is all that is added) and in the logs. What is outside the block stays (assumption 6, the model's). -/
def Obligations.AssertedRstResetsAtOnce : Prop :=
  ∀ (s : State) (rest : List Input), s.inputs = .rst true :: rest →
    step s = .next { State.reset with
      params := s.params, rst := true, inputs := rest, colDraws := s.colDraws
      drawCount := s.drawCount, trace := s.trace ++ [.rst true] }

/-- R230 on release: every piece of state takes its reset value again and the block is idle. That RST released
where it was not asserted is no event is not R230's but the model's DESIGN CHOICE (assumption 6). -/
def Obligations.ReleasedRstLeavesTheBlockIdle : Prop :=
  ∀ (s : State) (rest : List Input), s.op = [] → s.inputs = .rst false :: rest →
    (s.rst = true →
      step s = .next { State.reset with
        params := s.params, rst := false, inputs := rest, colDraws := s.colDraws
        drawCount := s.drawCount, trace := s.trace ++ [.rst false] }) ∧
    (s.rst = false → step s = .next { s with inputs := rest })

/-- R231: a write of an operation to CMD that RST cuts after `k` elementary steps. What the outside world saw
is exactly what the first `k` of them show, which is a beginning of what the whole operation does, then RST; the
block is as reset leaves it. The paused write and the elementary step as the place of the cut are the model's
(assumption 4), and so is the trace (assumption 5). -/
def Obligations.RstCutsAnOperationShort : Prop :=
  ∀ (s : State) (w : Word) (k : Nat) (rest : List Input) (i : Instr),
    s.op = [] → s.rst = false → s.inputs = .writePaused w k :: .rst true :: rest →
    decode (decide (s.putsRem ≠ 0#6)) w = .ok i →
    ∃ (t whole : State) (done left : List Event),
      Host.Core.run Sys2Proof.core 2 s = .next t ∧
      (let s' : State := { s with inputs := .rst true :: rest }
       (runPrims ((programOf i s').take k) s').trace = s.trace ++ done ∧ exec i s' = .next whole) ∧
      whole.trace = s.trace ++ done ++ left ∧
      t.trace = s.trace ++ done ++ [.rst true] ∧
      t.lcdLog = [] ∧ t.scanLog = [] ∧ t.op = [] ∧ t.lcdE = false ∧ t.lcdD = 0#4 ∧ t.lcdRs = false ∧
      t.lcdRw = false ∧ t.row = 0#4 ∧ t.keyres = 0#16 ∧ t.err = false ∧ t.initDone = false ∧ t.cause = 0#4 ∧
      t.putsRem = 0#6 ∧ t.charCnt = 0#6 ∧ t.rst = true ∧ t.inputs = rest

/-- Assumption 4, the model's: a paused write whose operation is not cut ends as the whole write does, wherever
it was paused. -/
def Obligations.PausedWriteEndsAsTheWholeWrite : Prop :=
  ∀ (s t : State) (w : Word) (k : Nat) (rest : List Input),
    s.op = [] → s.rst = false → s.inputs = .writePaused w k :: rest → step s = .next t →
    acceptWord w { s with inputs := rest } = .next (finishOp t) ∧
    (t.op ≠ [] → (∀ r, rest ≠ .rst true :: r) → step t = .next (finishOp t))

/-! ## Decoding and encoding -/

/-- R72: each row of the opcode map with its mask, match and extra condition names its operation, with the
operand fields of R73; a word that matches no row while PUTS_REM = 0 is rejected; and while PUTS_REM ≠ 0 only
PUTS.CHAR applies. -/
def Obligations.OpcodeMapNamesEachOperation : Prop :=
  ∀ w : Word,
    (w &&& 0xFFFF#16 = 0x0000#16 → decode false w = .ok .nop) ∧
    (w &&& 0xFFFF#16 = 0x1000#16 → decode false w = .ok .lcdInit) ∧
    (w &&& 0xFF00#16 = 0x2000#16 → decode false w = .ok (.lcdCmd (BitVec.ofNat 8 (w.toNat % 256)))) ∧
    (w &&& 0xFF00#16 = 0x3000#16 → decode false w = .ok (.lcdData (BitVec.ofNat 8 (w.toNat % 256)))) ∧
    (w &&& 0xFFC0#16 = 0x4000#16 → w.toNat % 64 ≤ 32 →
      decode false w = .ok (.lcdPuts (BitVec.ofNat 6 (w.toNat % 64)))) ∧
    (w &&& 0xFFFC#16 = 0x5000#16 → decode false w = .ok (.keyScan (BitVec.ofNat 2 (w.toNat % 4)))) ∧
    (w &&& 0xF000#16 = 0x6000#16 → decode false w = .ok (.wait (BitVec.ofNat 12 (w.toNat % 4096)))) ∧
    (w &&& 0xFFFF#16 ≠ 0x0000#16 → w &&& 0xFFFF#16 ≠ 0x1000#16 → w &&& 0xFF00#16 ≠ 0x2000#16 →
      w &&& 0xFF00#16 ≠ 0x3000#16 → ¬(w &&& 0xFFC0#16 = 0x4000#16 ∧ w.toNat % 64 ≤ 32) →
      w &&& 0xFFFC#16 ≠ 0x5000#16 → w &&& 0xF000#16 ≠ 0x6000#16 → ∃ e, decode false w = .error e) ∧
    decode true w =
      .ok (.putsChar (BitVec.ofNat 8 (w.toNat % 256)) (BitVec.ofNat 8 (w.toNat / 256)))

/-- Words written out from the fields of R70, one for each format, decode to what they stand for. -/
def Obligations.WordsOfTheFormatsDecode : Prop :=
  decode false 0b0000_000000000000#16 = .ok .nop ∧
  decode false 0b0001_000000000000#16 = .ok .lcdInit ∧
  decode false 0b0010_0000_10101011#16 = .ok (.lcdCmd 0xAB#8) ∧
  decode false 0b0011_0000_01000001#16 = .ok (.lcdData 0x41#8) ∧
  decode false 0b0100_000000_010001#16 = .ok (.lcdPuts 17#6) ∧
  decode false 0b0101_0000000000_10#16 = .ok (.keyScan 2#2) ∧
  decode false 0b0110_000001100100#16 = .ok (.wait 100#12) ∧
  decode true 0b11111111_01000111#16 = .ok (.putsChar 0x47#8 0xFF#8)

/-- Decode after encode: every well-formed operation, every operand at every value its field admits, in the mode
that admits it, is read back from its own word. -/
def Obligations.DecodeEncodeIsTheOperation : Prop :=
  ∀ (payload : Bool) (i : Instr), i.wellFormed = true → i.admitted payload = true →
    decode payload (encode i) = .ok i

/-- Encode after decode: an accepted word has one meaning, legal in the mode it was read in, and that meaning has
one word. -/
def Obligations.EncodeDecodeIsTheWord : Prop :=
  ∀ (payload : Bool) (w : Word) (i : Instr), decode payload w = .ok i →
    encode i = w ∧ i.wellFormed = true ∧ i.admitted payload = true

/-- R74: with no PUTS active, a reserved opcode, a nonzero must-be-zero field and an over-long string take the
error action of R201 with cause 1, 2 and 3, with no other effect; WAIT has no reserved bits; every other word
is an operation. -/
def Obligations.ReservedWordsTakeTheErrorAction : Prop :=
  ∀ (s : State) (w : Word), s.putsRem = 0#6 →
    let op := w.toNat / 4096
    let errorState (c : BitVec 4) : State := { s with cause := if s.err then s.cause else c, err := true }
    let reserved : Prop :=
      (op ≤ 1 ∧ w.toNat % 4096 ≠ 0) ∨ ((op = 2 ∨ op = 3) ∧ w.toNat / 256 % 16 ≠ 0) ∨
      (op = 4 ∧ w.toNat / 64 % 64 ≠ 0) ∨ (op = 5 ∧ w.toNat / 4 % 1024 ≠ 0)
    let tooLong : Prop := op = 4 ∧ w.toNat / 64 % 64 = 0 ∧ 33 ≤ w.toNat % 64
    (7 ≤ op → acceptWord w s = .next (errorState 1#4)) ∧
    (reserved → acceptWord w s = .next (errorState 2#4)) ∧
    (tooLong → acceptWord w s = .next (errorState 3#4)) ∧
    (¬7 ≤ op → ¬reserved → ¬tooLong → ∃ i, decode false w = .ok i ∧ acceptWord w s = exec i s)

/-- R75: while a PUTS is active every word is a character: its low byte is sent as data, its high byte has no
effect and nothing is rejected. -/
def Obligations.EveryPayloadWordIsACharacter : Prop :=
  ∀ (s : State) (w : Word) (high : Byte), s.putsRem ≠ 0#6 →
    ∃ (t : State) (before after : List Transfer),
      acceptWord w s = .next t ∧
      acceptWord (high ++ BitVec.ofNat 8 (w.toNat % 256)) s = .next t ∧
      t.lcdLog = s.lcdLog ++ before ++ byteLog true (BitVec.ofNat 8 (w.toNat % 256)) ++ after ∧
      t.err = s.err ∧ t.cause = s.cause

/-- R78: the expansions of the pseudo-instructions, and that the assembler refuses a string longer than 32 bytes. -/
def Obligations.PseudoInstructionsExpand : Prop :=
  (∀ text : List Byte, text.length ≤ 32 →
    expand (.puts text) =
      some (.write 0#2 (BitVec.ofNat 16 (0x4000 + text.length)) ::
        text.map fun c => .write 0#2 (BitVec.ofNat 16 c.toNat))) ∧
  (∀ text : List Byte, 32 < text.length → expand (.puts text) = none) ∧
  expand .line2 = some [.write 0#2 0x20C0#16] ∧
  expand .clear = some [.write 0#2 0x2001#16] ∧
  expand .home = some [.write 0#2 0x2002#16] ∧
  expand .sweep =
    some [.write 0#2 0x5000#16, .read 1#2, .write 0#2 0x5001#16, .read 1#2,
      .write 0#2 0x5002#16, .read 1#2, .write 0#2 0x5003#16, .read 1#2]

/-! ## One step -/

/-- A step runs the decoded operation: with no operation in progress and RST released, a host write to CMD whose
word decodes to `i` is `exec i`, the write being used up. -/
def Obligations.StepRunsTheDecodedOperation : Prop :=
  ∀ (s : State) (w : Word) (rest : List Input) (i : Instr),
    s.op = [] → s.rst = false → s.inputs = .write 0#2 w :: rest →
    decode (decide (s.putsRem ≠ 0#6)) w = .ok i → step s = exec i { s with inputs := rest }

/-- Assumption 2, the model's: the word that `withFetchWord` places is what the very next step runs. -/
def Obligations.FetchWordIsTheNextToRun : Prop :=
  ∀ (s : State) (w : Word) (i : Instr), decode (decide (s.putsRem ≠ 0#6)) w = .ok i →
    step (s.withFetchWord 16 w.toNat) = exec i { s with rst := false, op := [] }

/-- R201: a rejected word records its cause if it is the first, sets ERR, and does nothing else. -/
def Obligations.RejectedWordKeepsTheFirstCause : Prop :=
  ∀ (s : State) (w : Word) (rest : List Input) (e : DecodeError),
    s.op = [] → s.rst = false → s.inputs = .write 0#2 w :: rest →
    decode (decide (s.putsRem ≠ 0#6)) w = .error e →
    step s = .next { s with
      inputs := rest
      cause := if s.err = false then (match e with | .reservedOp => 1#4 | .reservedBits => 2#4 | .putsTooLong => 3#4)
        else s.cause
      err := true }

/-- R183: what a host read of STATUS, of CMD and of offset 3 returns; it changes nothing. -/
def Obligations.HostReadOfStatusAndTheRest : Prop :=
  ∀ (s : State) (off : Offset) (rest : List Input), s.op = [] → s.inputs = .read off :: rest → off ≠ 1#2 →
    ∃ v : Word,
      step s = .next { s with inputs := rest, trace := s.trace ++ [.hostRead off v] } ∧
      (off = 2#2 → v.toNat =
        s.putsRem.toNat * 256 + s.cause.toNat * 16 + s.initDone.toNat * 2 + s.err.toNat) ∧
      (off ≠ 2#2 → v = 0x0000#16)

/-- R182: a host read of KEYRES returns KEYRES and changes nothing, also while a PUTS is active, so that a second
read returns the same value. -/
def Obligations.HostReadOfKeyres : Prop :=
  ∀ (s : State) (rest : List Input), s.op = [] → s.inputs = .read 1#2 :: rest →
    step s = .next { s with inputs := rest, trace := s.trace ++ [.hostRead 1#2 s.keyres] }

/-- R184: a host write to offset 1, 2 or 3 is ignored, also during a PUTS. -/
def Obligations.StrayHostWritesAreIgnored : Prop :=
  ∀ (s : State) (off : Offset) (v : Word) (rest : List Input),
    s.op = [] → s.inputs = .write off v :: rest → off ≠ 0#2 → step s = .next { s with inputs := rest }

/-- Assumption 2, the model's: with no input and no operation in progress the block idles and every level and
register stays (R28: "Every output keeps its level between operations"). -/
def Obligations.BlockWithoutInputIdles : Prop :=
  ∀ s : State, s.op = [] → s.inputs = [] → step s = .next s

/-- R200 read over the whole machine: nothing stops the block, in any state. -/
def Obligations.EveryStepAnswersNext : Prop :=
  ∀ s : State, ∃ t : State, step s = .next t

/-! ## The operations: completion, result and frame -/

/-- R180: NOP changes nothing; its encoding is 0x0000 exactly, and 0x0001 to 0x0FFF raise Error(2);
inside a PUTS that word is the character 0x00. -/
def Obligations.NopChangesNothing : Prop :=
  (∀ s : State, exec .nop s = .next s) ∧
  decode false 0x0000#16 = .ok .nop ∧
  (∀ (s : State) (w : Word), s.putsRem = 0#6 → 0x0001 ≤ w.toNat → w.toNat ≤ 0x0FFF →
    acceptWord w s = .next (raiseError 2#4 s)) ∧
  decode true 0x0000#16 = .ok (.putsChar 0x00#8 0x00#8)

/-- R181: WAIT n changes no register, pin or log and holds for at least n units; every imm12 is legal; consecutive
WAITs add their lower bounds. -/
def Obligations.WaitOnlyHoldsTheBlock : Prop :=
  ∀ (s : State) (n : BitVec 12),
    exec (.wait n) s = .next { s with trace := s.trace ++ [.wait n.toNat] } ∧
    decode false (0x6#4 ++ n) = .ok (.wait n) ∧
    ∀ (m : BitVec 12) (t u : State), exec (.wait n) s = .next t → exec (.wait m) t = .next u →
      waitUnits u.trace = waitUnits s.trace + n.toNat + m.toNat

/-- R134: LCD.CMD v sends one command byte, for every v and in every state, and changes only the LCD pins and
LCD_LOG. 0xC0 settles short under the defaults. -/
def Obligations.LcdCmdSendsOneCommandByte : Prop :=
  ∀ (s : State) (v : Byte),
    exec (.lcdCmd v) s = .next { s with
      lcdRs := false, lcdD := lowNibble v, lcdE := false
      lcdLog := s.lcdLog ++ [⟨false, highNibble v⟩, ⟨false, lowNibble v⟩]
      trace := s.trace ++ cmdEvents s.params v } ∧
    decode false (0x2#4 ++ 0#4 ++ v) = .ok (.lcdCmd v) ∧
    (∀ w : Word, s.putsRem = 0#6 → w.toNat / 4096 = 2 → w.toNat / 256 % 16 ≠ 0 →
      acceptWord w s = .next (raiseError 2#4 s)) ∧
    cmdEvents Config.defaults 0xC0#8 = byteEvents Config.defaults false 0xC0#8 Config.defaults.tShort

/-- R135: LCD.DATA v sends one character byte, which settles short for every v, and changes only the LCD pins and
LCD_LOG: CHARCNT is not touched. -/
def Obligations.LcdDataSendsOneCharacterByte : Prop :=
  ∀ (s : State) (v : Byte),
    exec (.lcdData v) s = .next { s with
      lcdRs := true, lcdD := lowNibble v, lcdE := false
      lcdLog := s.lcdLog ++ [⟨true, highNibble v⟩, ⟨true, lowNibble v⟩]
      trace := s.trace ++ dataEvents s.params v } ∧
    decode false (0x3#4 ++ 0#4 ++ v) = .ok (.lcdData v) ∧
    ∀ w : Word, s.putsRem = 0#6 → w.toNat / 4096 = 3 → w.toNat / 256 % 16 ≠ 0 →
      acceptWord w s = .next (raiseError 2#4 s)

/-- R136: LCD.INIT waits P_T_PWR, sends the five bytes of P_INIT_SEQ as commands with their settles and extra
waits, sets INIT_DONE, and changes nothing else. It may be issued at any time. -/
def Obligations.LcdInitSendsTheFixedSequence : Prop :=
  ∀ s : State,
    exec .lcdInit s = .next { s with
      lcdRs := false, lcdD := lowNibble s.params.initSeq[4], lcdE := false, initDone := true
      lcdLog := s.lcdLog ++ s.params.initSeq.toList.flatMap (byteLog false)
      trace := s.trace ++ [.wait s.params.tPwr] ++
        (List.finRange 5).flatMap fun k =>
          cmdEvents s.params s.params.initSeq[k] ++ [.wait s.params.tInit[k]] } ∧
    (s.params.initSeq.toList.flatMap (byteLog false)).length = 10 ∧
    decode false 0x1000#16 = .ok .lcdInit ∧
    ∀ w : Word, s.putsRem = 0#6 → w.toNat / 4096 = 1 → w.toNat % 4096 ≠ 0 →
      acceptWord w s = .next (raiseError 2#4 s)

/-- R138: the header of an empty string has no effect; the header of L ≥ 1 characters opens a payload window of L
words. Nothing else changes, and the header is rejected with cause 2 or 3 as the rule says. -/
def Obligations.LcdPutsOpensThePayloadWindow : Prop :=
  (∀ (s : State) (len : BitVec 6),
    exec (.lcdPuts len) s = .next (if len = 0#6 then s else { s with putsRem := len, charCnt := 0#6 })) ∧
  (∀ len : BitVec 6, len.toNat ≤ 32 → decode false (0x4#4 ++ 0#6 ++ len) = .ok (.lcdPuts len)) ∧
  (∀ (s : State) (len : BitVec 6), s.putsRem = 0#6 → 33 ≤ len.toNat →
    acceptWord (0x4#4 ++ 0#6 ++ len) s = .next (raiseError 3#4 s)) ∧
  ∀ (s : State) (w : Word), s.putsRem = 0#6 → w.toNat / 4096 = 4 → w.toNat / 64 % 64 ≠ 0 →
    acceptWord w s = .next (raiseError 2#4 s)

/-- R139: PUTS.CHAR c sends the character with the wrap its policy asks for, counts it, and ends the PUTS with
its last character. The ignored byte of the word has no effect, and nothing else changes. -/
def Obligations.PutsCharSendsWrapsAndCounts : Prop :=
  ∀ (s : State) (c ignored : Byte), s.putsRem ≠ 0#6 →
    let before : Bool := decide (s.params.wrapPolicy = .lazy ∧ s.charCnt = 16#6)
    let after : Bool := decide (s.params.wrapPolicy = .eager ∧ s.charCnt = 15#6)
    exec (.putsChar c ignored) s = .next { s with
      lcdRs := !after, lcdD := if after then 0x0#4 else lowNibble c, lcdE := false
      lcdLog := s.lcdLog ++ (if before then [⟨false, 0xC#4⟩, ⟨false, 0x0#4⟩] else []) ++
        [⟨true, highNibble c⟩, ⟨true, lowNibble c⟩] ++ (if after then [⟨false, 0xC#4⟩, ⟨false, 0x0#4⟩] else [])
      charCnt := if s.putsRem = 1#6 then 0#6 else s.charCnt + 1#6
      putsRem := s.putsRem - 1#6
      trace := s.trace ++ (if before then cmdEvents s.params 0xC0#8 else []) ++ dataEvents s.params c ++
        (if after then cmdEvents s.params 0xC0#8 else []) }

/-- R106: KEY.SCAN of row r, for every value c the environment draws (from `colDraws`, else the free value): ROW
is driven, KEYRES is written whole from r, c and the lookup, the scan is logged, and nothing else changes. The
word with a nonzero w[11:2] is rejected. Which draws are used up is the model's (assumption 3). -/
def Obligations.KeyScanDrivesSamplesAndReports : Prop :=
  (∀ (s : State) (r : RowIdx) (c : Nibble),
    c = (match s.colDraws with | d :: _ => d | [] => Config.columnDraw s.drawCount) →
    exec (.keyScan r) s = .next { s with
      row := onehot4 r
      keyres := match (if c = 0#4 then none else lookup s.params (pack s.params r c)) with
        | some x => 1#1 ++ 0#1 ++ r ++ c ++ x
        | none => 0#1 ++ 0#1 ++ r ++ c ++ 0x00#8
      scanLog := s.scanLog ++ [⟨r, c⟩]
      colDraws := s.colDraws.tail
      drawCount := if s.colDraws = [] then s.drawCount + 1 else s.drawCount
      trace := s.trace ++ [.row (onehot4 r), .wait s.params.tRow, .sample r c] }) ∧
  (∀ r : RowIdx, decode false (0x5#4 ++ 0#10 ++ r) = .ok (.keyScan r)) ∧
  ∀ (s : State) (w : Word), s.putsRem = 0#6 → w.toNat / 4096 = 5 → w.toNat / 4 % 1024 ≠ 0 →
    acceptWord w s = .next (raiseError 2#4 s)

/-- R100: a scan asserts exactly the one row line it names, and the pattern stays until the next scan: no other
operation changes ROW. -/
def Obligations.ScanAssertsExactlyOneRow : Prop :=
  (∀ (s : State) (r : RowIdx), ∃ t, exec (.keyScan r) s = .next t ∧
    ∀ j : Nat, j < 4 → (t.row.getLsbD j = true ↔ j = r.toNat)) ∧
  ∀ (s t : State) (i : Instr), (∀ r, i ≠ .keyScan r) → exec i s = .next t → t.row = s.row

/-- R54: a byte goes out as two transfers, first v[7:4] and then v[3:0], both with the same RS, as a command and
as data. -/
def Obligations.BytesGoHighNibbleFirst : Prop :=
  ∀ (s : State) (v : Byte), ∃ (t u : State) (hi lo : Nibble),
    hi.toNat = v.toNat / 16 ∧ lo.toNat = v.toNat % 16 ∧
    exec (.lcdCmd v) s = .next t ∧ t.lcdLog = s.lcdLog ++ [⟨false, hi⟩, ⟨false, lo⟩] ∧
    exec (.lcdData v) s = .next u ∧ u.lcdLog = s.lcdLog ++ [⟨true, hi⟩, ⟨true, lo⟩]

/-! ## The keypad result -/

/-- R105, which the spec derives: for any parameters meeting R9 a scan resolves a key exactly when one column is
high, the key at that place, and neither P_SCAN_LAYOUT nor P_ROW_ID matters. -/
def Obligations.ScanResolvesExactlyOneColumn : Prop :=
  ∀ p : Params, validParams p →
    (∀ (r : RowIdx) (c : Nibble), (∃ x, resolveKey p r c = some x) ↔ popcount c = 1) ∧
    (∀ r j : RowIdx, resolveKey p r (onehot4 j) = some (keyAt p r j)) ∧
    ∀ q : Params, validParams q → q.keymap = p.keymap →
      ∀ (r : RowIdx) (c : Nibble), scanResult q r c = scanResult p r c

/-- R102: pack's two layouts as numbers, and that it is injective for any parameters meeting R9 (the injectivity is
the spec's own derivation). -/
def Obligations.ScanCodesTellRowsAndColumnsApart : Prop :=
  ∀ (p : Params) (r : RowIdx) (c : Nibble),
    (p.layout = .rowHigh → (pack p r c).toNat = (rowIdOf p r).toNat * 16 + c.toNat) ∧
    (p.layout = .rowLow → (pack p r c).toNat = c.toNat * 16 + (rowIdOf p r).toNat) ∧
    (validParams p → ∀ (q : RowIdx) (d : Nibble), pack p r c = pack p q d → r = q ∧ c = d)

/-- R107(b) and (c), which the spec derives: a single key on its row gives VALID = 1 and one character of the
alphabet, another key another character; an idle row gives VALID = 0 and CHAR = 0x00. -/
def Obligations.SingleKeysGiveDistinctCharacters : Prop :=
  ∀ p : Params, validParams p →
    (∀ r j : RowIdx, keyresValid (scanResult p r (onehot4 j)) = true ∧
      keyresChar (scanResult p r (onehot4 j)) ∈ Config.alphabet.toList) ∧
    (∀ r j q k : RowIdx, keyresChar (scanResult p r (onehot4 j)) = keyresChar (scanResult p q (onehot4 k)) →
      r = q ∧ j = k) ∧
    ∀ r : RowIdx, keyresValid (scanResult p r 0#4) = false ∧ keyresChar (scanResult p r 0#4) = 0x00#8

/-- The fields of KEYRES as R23 lays them out: what KEY.SCAN writes, read back field by field; bit 14 reads 0 and
CHAR is 0x00 where VALID is 0. -/
def Obligations.KeyresFieldsReadBack : Prop :=
  ∀ (p : Params) (r : RowIdx) (c : Nibble),
    let w := scanResult p r c
    w.toNat / 4096 % 4 = r.toNat ∧ w.toNat / 256 % 16 = c.toNat ∧ w.toNat / 16384 % 2 = 0 ∧
    (w.toNat / 32768 = 1 ↔ ∃ x, resolveKey p r c = some x) ∧
    (∀ x, resolveKey p r c = some x → w.toNat % 256 = x.toNat) ∧
    (resolveKey p r c = none → w.toNat / 32768 = 0 ∧ w.toNat % 256 = 0)

/-! ## Invariants of every step -/

/-- Reset meets every invariant below, and the defaults of R8 meet the constraints of R9. -/
def Obligations.ResetMeetsEveryInvariant : Prop :=
  StateInv State.reset ∧ ErrorFields State.reset ∧ KeyresIsLastScan State.reset ∧ TraceExplains State.reset ∧
  BusDiscipline State.reset ∧ HeldQuiet State.reset ∧ validParams Config.defaults

/-- R35, which the spec derives, kept by every step, also over an operation that is paused. -/
def Obligations.EveryStepKeepsTheStateInvariants : Prop :=
  ∀ s t : State, StateInv s → step s = .next t → StateInv t

/-- R30 and R31 over the whole machine: the pins, LCD_LOG and SCAN_LOG are at every moment what an observer of the
pins makes of the observations, an LCD_LOG entry for each fall of LCD_E and none for RST. -/
def Obligations.EveryStepKeepsTheLogsTrue : Prop :=
  ∀ s t : State, TraceExplains s → step s = .next t → TraceExplains t

/-- R130, derived there from R131: RS and LCD_D change only while LCD_E = 0, in everything a step shows. -/
def Obligations.EveryStepKeepsTheBusDiscipline : Prop :=
  ∀ s t : State, BusDiscipline s → step s = .next t → BusDiscipline t

/-- R23: KEYRES holds the result of the most recent KEY.SCAN, kept by every step. -/
def Obligations.EveryStepKeepsKeyresTheLastScan : Prop :=
  ∀ s t : State, KeyresIsLastScan s → step s = .next t → KeyresIsLastScan t

/-- R24, R201, R202: ERR and CAUSE agree, and cause codes 4 to 15 never appear, kept by every step. -/
def Obligations.EveryStepKeepsTheErrorFields : Prop :=
  ∀ s t : State, ErrorFields s → step s = .next t → ErrorFields t

/-- R230, with what a host access does meanwhile as the model reads it (assumption 6): while RST is asserted every
piece of state keeps its reset value. -/
def Obligations.EveryStepKeepsAHeldBlockQuiet : Prop :=
  ∀ s t : State, HeldQuiet s → step s = .next t → HeldQuiet t

/-- R204 and R24: ERR, CAUSE of the first error and INIT_DONE are sticky. Only RST clears them. -/
def Obligations.OnlyResetClearsTheStickyStatus : Prop :=
  ∀ s t : State, (∀ (b : Bool) (rest : List Input), s.inputs ≠ .rst b :: rest) → step s = .next t →
    (s.err = true → t.err = true ∧ t.cause = s.cause) ∧
    (s.initDone = true → t.initDone = true)

/-- R35(c), which the spec derives: while a PUTS is active, CHARCNT + PUTS_REM stays the length it began with. -/
def Obligations.PutsCountersAddUpToTheLength : Prop :=
  ∀ s t : State, s.op = [] → s.putsRem ≠ 0#6 → step s = .next t → t.op = [] → t.putsRem ≠ 0#6 →
    t.charCnt + t.putsRem = s.charCnt + s.putsRem

/-- Assumption 1, the model's: no step changes a parameter, and LCD_RW is driven by none (R28, R35(f)). -/
def Obligations.NoStepChangesParametersOrDrivesRead : Prop :=
  ∀ s t : State, step s = .next t → t.params = s.params ∧ (s.lcdRw = false → t.lcdRw = false)

/-! ## Whole-machine results -/

/-- R141, derived by the spec, with R242: a header for `ws.length` ≤ 32 words and then those words, whatever their
bit patterns, send exactly the transfers of R141 for their low bytes, under both wrap policies, and the PUTS
ends. Nothing but the LCD pins, LCD_LOG and the trace is different afterwards. -/
def Obligations.PutsSendsTheWrappedText : Prop :=
  ∀ (s : State) (ws : List Word) (rest : List Input),
    s.op = [] → s.rst = false → Settled s → s.putsRem = 0#6 → ws.length ≤ 32 →
    s.inputs = .write 0#2 (BitVec.ofNat 16 (0x4000 + ws.length)) :: (ws.map (.write 0#2) ++ rest) →
    ∃ t : State, Host.Core.run Sys2Proof.core (ws.length + 1) s = .next t ∧
      t = { s with
        inputs := rest
        lcdLog := s.lcdLog ++ putsLog s.params.wrapPolicy (ws.map (BitVec.setWidth 8))
        lcdRs := t.lcdRs, lcdD := t.lcdD, trace := t.trace }

/-- R141's last sentence with the informative display of R143: a string of at most 32 characters, sent with the
cursor at the line-1 origin, stands on the display with its first 16 characters on line 1 and the others from the
start of line 2. The display is outside the block, and its model is general knowledge (assumption 13). -/
def Obligations.WrappedTextFillsTheTwoLines : Prop :=
  ∀ (policy : WrapPolicy) (text : List Byte) (d : Display), text.length ≤ 32 → d.cursor = 0x00#7 →
    ∀ (k : Nat) (c : Byte), text[k]? = some c →
      (d.after (putsLog policy text)).charAt (placeOf k) = c

/-- R241 and R12: two states that differ only in durations (the timing parameters, the waits still to do and the
waits seen) do the same, for ever: what one step makes of them differs only in durations. -/
def Obligations.TimingChangesNoResult : Prop :=
  ∀ s s' : State, untimed s = untimed s' →
    ∃ t t' : State, step s = .next t ∧ step s' = .next t' ∧ untimed t = untimed t'

/-- R247, derived by the spec: the minimum duration of each operation is the table's, but for the row "PUTS.CHAR
(with wrap)": there the wrap takes the settle delay of R133 for 0xC0, which is the table's P_T_SHORT only where
0xC0 is not in P_LONG_CMDS. That row is the model's deduction (assumption 7). -/
def Obligations.OperationsLastTheirMinimumTimes : Prop :=
  ∀ (i : Instr) (s t : State), exec i s = .next t →
    waitUnits t.trace = waitUnits s.trace + minDuration i s

/-- R245 and R201: neither INIT_DONE nor an earlier error gates anything: the same operation in the same state with
other values of INIT_DONE, ERR and CAUSE does the same. -/
def Obligations.InitDoneAndErrorsGateNothing : Prop :=
  ∀ (i : Instr) (s t : State) (done err : Bool) (cause : BitVec 4), exec i s = .next t →
    exec i { s with initDone := done, err := err, cause := cause } =
      .next { t with initDone := done || decide (i = .lcdInit), err := err, cause := cause }

/-- R23: only KEY.SCAN among the operations writes KEYRES and SCAN_LOG, and it writes no LCD pin, no LCD_LOG, no
STATUS field and no PUTS state (R106). That only KEY.SCAN uses up column draws is the model's DESIGN CHOICE
(assumption 3). -/
def Obligations.KeypadAndLcdStayApart : Prop :=
  ∀ (i : Instr) (s t : State), exec i s = .next t →
    ((∀ r, i ≠ .keyScan r) → t.keyres = s.keyres ∧ t.scanLog = s.scanLog ∧ t.colDraws = s.colDraws ∧
      t.drawCount = s.drawCount) ∧
    ((∃ r, i = .keyScan r) → t.lcdRs = s.lcdRs ∧ t.lcdD = s.lcdD ∧ t.lcdE = s.lcdE ∧ t.lcdRw = s.lcdRw ∧
      t.lcdLog = s.lcdLog ∧ t.putsRem = s.putsRem ∧ t.charCnt = s.charCnt ∧ t.initDone = s.initDone ∧ t.err = s.err ∧
      t.cause = s.cause)
end

