-- ==== Sys2Proof/Laws/State.lean ====
section
/-! SUPPORT. One lemma per field and per update of State, each true by rfl. -/

namespace Sys2Proof.Machine

section
variable (s : State)

/-! Fields after `setRs`. -/

@[simp] theorem setRs_params (b : Bool) : (setRs b s).params = s.params := rfl
@[simp] theorem setRs_rst (b : Bool) : (setRs b s).rst = s.rst := rfl
@[simp] theorem setRs_keyres (b : Bool) : (setRs b s).keyres = s.keyres := rfl
@[simp] theorem setRs_err (b : Bool) : (setRs b s).err = s.err := rfl
@[simp] theorem setRs_initDone (b : Bool) : (setRs b s).initDone = s.initDone := rfl
@[simp] theorem setRs_cause (b : Bool) : (setRs b s).cause = s.cause := rfl
@[simp] theorem setRs_putsRem (b : Bool) : (setRs b s).putsRem = s.putsRem := rfl
@[simp] theorem setRs_charCnt (b : Bool) : (setRs b s).charCnt = s.charCnt := rfl
@[simp] theorem setRs_lcdD (b : Bool) : (setRs b s).lcdD = s.lcdD := rfl
@[simp] theorem setRs_lcdRs (b : Bool) : (setRs b s).lcdRs = b := rfl
@[simp] theorem setRs_lcdE (b : Bool) : (setRs b s).lcdE = s.lcdE := rfl
@[simp] theorem setRs_lcdRw (b : Bool) : (setRs b s).lcdRw = s.lcdRw := rfl
@[simp] theorem setRs_row (b : Bool) : (setRs b s).row = s.row := rfl
@[simp] theorem setRs_op (b : Bool) : (setRs b s).op = s.op := rfl
@[simp] theorem setRs_lcdLog (b : Bool) : (setRs b s).lcdLog = s.lcdLog := rfl
@[simp] theorem setRs_scanLog (b : Bool) : (setRs b s).scanLog = s.scanLog := rfl
@[simp] theorem setRs_inputs (b : Bool) : (setRs b s).inputs = s.inputs := rfl
@[simp] theorem setRs_colDraws (b : Bool) : (setRs b s).colDraws = s.colDraws := rfl
@[simp] theorem setRs_drawCount (b : Bool) : (setRs b s).drawCount = s.drawCount := rfl
@[simp] theorem setRs_trace (b : Bool) : (setRs b s).trace = s.trace ++ [.rs b] := rfl

/-! Fields after `setD`. -/

@[simp] theorem setD_params (n : Nibble) : (setD n s).params = s.params := rfl
@[simp] theorem setD_rst (n : Nibble) : (setD n s).rst = s.rst := rfl
@[simp] theorem setD_keyres (n : Nibble) : (setD n s).keyres = s.keyres := rfl
@[simp] theorem setD_err (n : Nibble) : (setD n s).err = s.err := rfl
@[simp] theorem setD_initDone (n : Nibble) : (setD n s).initDone = s.initDone := rfl
@[simp] theorem setD_cause (n : Nibble) : (setD n s).cause = s.cause := rfl
@[simp] theorem setD_putsRem (n : Nibble) : (setD n s).putsRem = s.putsRem := rfl
@[simp] theorem setD_charCnt (n : Nibble) : (setD n s).charCnt = s.charCnt := rfl
@[simp] theorem setD_lcdD (n : Nibble) : (setD n s).lcdD = n := rfl
@[simp] theorem setD_lcdRs (n : Nibble) : (setD n s).lcdRs = s.lcdRs := rfl
@[simp] theorem setD_lcdE (n : Nibble) : (setD n s).lcdE = s.lcdE := rfl
@[simp] theorem setD_lcdRw (n : Nibble) : (setD n s).lcdRw = s.lcdRw := rfl
@[simp] theorem setD_row (n : Nibble) : (setD n s).row = s.row := rfl
@[simp] theorem setD_op (n : Nibble) : (setD n s).op = s.op := rfl
@[simp] theorem setD_lcdLog (n : Nibble) : (setD n s).lcdLog = s.lcdLog := rfl
@[simp] theorem setD_scanLog (n : Nibble) : (setD n s).scanLog = s.scanLog := rfl
@[simp] theorem setD_inputs (n : Nibble) : (setD n s).inputs = s.inputs := rfl
@[simp] theorem setD_colDraws (n : Nibble) : (setD n s).colDraws = s.colDraws := rfl
@[simp] theorem setD_drawCount (n : Nibble) : (setD n s).drawCount = s.drawCount := rfl
@[simp] theorem setD_trace (n : Nibble) : (setD n s).trace = s.trace ++ [.data n] := rfl

/-! Fields after `setE`. -/

@[simp] theorem setE_params (b : Bool) : (setE b s).params = s.params := rfl
@[simp] theorem setE_rst (b : Bool) : (setE b s).rst = s.rst := rfl
@[simp] theorem setE_keyres (b : Bool) : (setE b s).keyres = s.keyres := rfl
@[simp] theorem setE_err (b : Bool) : (setE b s).err = s.err := rfl
@[simp] theorem setE_initDone (b : Bool) : (setE b s).initDone = s.initDone := rfl
@[simp] theorem setE_cause (b : Bool) : (setE b s).cause = s.cause := rfl
@[simp] theorem setE_putsRem (b : Bool) : (setE b s).putsRem = s.putsRem := rfl
@[simp] theorem setE_charCnt (b : Bool) : (setE b s).charCnt = s.charCnt := rfl
@[simp] theorem setE_lcdD (b : Bool) : (setE b s).lcdD = s.lcdD := rfl
@[simp] theorem setE_lcdRs (b : Bool) : (setE b s).lcdRs = s.lcdRs := rfl
@[simp] theorem setE_lcdE (b : Bool) : (setE b s).lcdE = b := rfl
@[simp] theorem setE_lcdRw (b : Bool) : (setE b s).lcdRw = s.lcdRw := rfl
@[simp] theorem setE_row (b : Bool) : (setE b s).row = s.row := rfl
@[simp] theorem setE_op (b : Bool) : (setE b s).op = s.op := rfl
@[simp] theorem setE_lcdLog (b : Bool) : (setE b s).lcdLog = s.lcdLog ++ transferOf b s := rfl
@[simp] theorem setE_scanLog (b : Bool) : (setE b s).scanLog = s.scanLog := rfl
@[simp] theorem setE_inputs (b : Bool) : (setE b s).inputs = s.inputs := rfl
@[simp] theorem setE_colDraws (b : Bool) : (setE b s).colDraws = s.colDraws := rfl
@[simp] theorem setE_drawCount (b : Bool) : (setE b s).drawCount = s.drawCount := rfl
@[simp] theorem setE_trace (b : Bool) : (setE b s).trace = s.trace ++ [.e b] := rfl

/-! Fields after `setRow`. -/

@[simp] theorem setRow_params (p : Nibble) : (setRow p s).params = s.params := rfl
@[simp] theorem setRow_rst (p : Nibble) : (setRow p s).rst = s.rst := rfl
@[simp] theorem setRow_keyres (p : Nibble) : (setRow p s).keyres = s.keyres := rfl
@[simp] theorem setRow_err (p : Nibble) : (setRow p s).err = s.err := rfl
@[simp] theorem setRow_initDone (p : Nibble) : (setRow p s).initDone = s.initDone := rfl
@[simp] theorem setRow_cause (p : Nibble) : (setRow p s).cause = s.cause := rfl
@[simp] theorem setRow_putsRem (p : Nibble) : (setRow p s).putsRem = s.putsRem := rfl
@[simp] theorem setRow_charCnt (p : Nibble) : (setRow p s).charCnt = s.charCnt := rfl
@[simp] theorem setRow_lcdD (p : Nibble) : (setRow p s).lcdD = s.lcdD := rfl
@[simp] theorem setRow_lcdRs (p : Nibble) : (setRow p s).lcdRs = s.lcdRs := rfl
@[simp] theorem setRow_lcdE (p : Nibble) : (setRow p s).lcdE = s.lcdE := rfl
@[simp] theorem setRow_lcdRw (p : Nibble) : (setRow p s).lcdRw = s.lcdRw := rfl
@[simp] theorem setRow_row (p : Nibble) : (setRow p s).row = p := rfl
@[simp] theorem setRow_op (p : Nibble) : (setRow p s).op = s.op := rfl
@[simp] theorem setRow_lcdLog (p : Nibble) : (setRow p s).lcdLog = s.lcdLog := rfl
@[simp] theorem setRow_scanLog (p : Nibble) : (setRow p s).scanLog = s.scanLog := rfl
@[simp] theorem setRow_inputs (p : Nibble) : (setRow p s).inputs = s.inputs := rfl
@[simp] theorem setRow_colDraws (p : Nibble) : (setRow p s).colDraws = s.colDraws := rfl
@[simp] theorem setRow_drawCount (p : Nibble) : (setRow p s).drawCount = s.drawCount := rfl
@[simp] theorem setRow_trace (p : Nibble) : (setRow p s).trace = s.trace ++ [.row p] := rfl

/-! Fields after `waitFor`. -/

@[simp] theorem waitFor_params (t : Nat) : (waitFor t s).params = s.params := rfl
@[simp] theorem waitFor_rst (t : Nat) : (waitFor t s).rst = s.rst := rfl
@[simp] theorem waitFor_keyres (t : Nat) : (waitFor t s).keyres = s.keyres := rfl
@[simp] theorem waitFor_err (t : Nat) : (waitFor t s).err = s.err := rfl
@[simp] theorem waitFor_initDone (t : Nat) : (waitFor t s).initDone = s.initDone := rfl
@[simp] theorem waitFor_cause (t : Nat) : (waitFor t s).cause = s.cause := rfl
@[simp] theorem waitFor_putsRem (t : Nat) : (waitFor t s).putsRem = s.putsRem := rfl
@[simp] theorem waitFor_charCnt (t : Nat) : (waitFor t s).charCnt = s.charCnt := rfl
@[simp] theorem waitFor_lcdD (t : Nat) : (waitFor t s).lcdD = s.lcdD := rfl
@[simp] theorem waitFor_lcdRs (t : Nat) : (waitFor t s).lcdRs = s.lcdRs := rfl
@[simp] theorem waitFor_lcdE (t : Nat) : (waitFor t s).lcdE = s.lcdE := rfl
@[simp] theorem waitFor_lcdRw (t : Nat) : (waitFor t s).lcdRw = s.lcdRw := rfl
@[simp] theorem waitFor_row (t : Nat) : (waitFor t s).row = s.row := rfl
@[simp] theorem waitFor_op (t : Nat) : (waitFor t s).op = s.op := rfl
@[simp] theorem waitFor_lcdLog (t : Nat) : (waitFor t s).lcdLog = s.lcdLog := rfl
@[simp] theorem waitFor_scanLog (t : Nat) : (waitFor t s).scanLog = s.scanLog := rfl
@[simp] theorem waitFor_inputs (t : Nat) : (waitFor t s).inputs = s.inputs := rfl
@[simp] theorem waitFor_colDraws (t : Nat) : (waitFor t s).colDraws = s.colDraws := rfl
@[simp] theorem waitFor_drawCount (t : Nat) : (waitFor t s).drawCount = s.drawCount := rfl
@[simp] theorem waitFor_trace (t : Nat) : (waitFor t s).trace = s.trace ++ [.wait t] := rfl

/-! Fields after `scanColumns`. -/

@[simp] theorem scanColumns_params (r : RowIdx) : (scanColumns r s).params = s.params := rfl
@[simp] theorem scanColumns_rst (r : RowIdx) : (scanColumns r s).rst = s.rst := rfl
@[simp] theorem scanColumns_keyres (r : RowIdx) :
    (scanColumns r s).keyres = scanResult s.params r (nextSample s) := rfl
@[simp] theorem scanColumns_err (r : RowIdx) : (scanColumns r s).err = s.err := rfl
@[simp] theorem scanColumns_initDone (r : RowIdx) : (scanColumns r s).initDone = s.initDone := rfl
@[simp] theorem scanColumns_cause (r : RowIdx) : (scanColumns r s).cause = s.cause := rfl
@[simp] theorem scanColumns_putsRem (r : RowIdx) : (scanColumns r s).putsRem = s.putsRem := rfl
@[simp] theorem scanColumns_charCnt (r : RowIdx) : (scanColumns r s).charCnt = s.charCnt := rfl
@[simp] theorem scanColumns_lcdD (r : RowIdx) : (scanColumns r s).lcdD = s.lcdD := rfl
@[simp] theorem scanColumns_lcdRs (r : RowIdx) : (scanColumns r s).lcdRs = s.lcdRs := rfl
@[simp] theorem scanColumns_lcdE (r : RowIdx) : (scanColumns r s).lcdE = s.lcdE := rfl
@[simp] theorem scanColumns_lcdRw (r : RowIdx) : (scanColumns r s).lcdRw = s.lcdRw := rfl
@[simp] theorem scanColumns_row (r : RowIdx) : (scanColumns r s).row = s.row := rfl
@[simp] theorem scanColumns_op (r : RowIdx) : (scanColumns r s).op = s.op := rfl
@[simp] theorem scanColumns_lcdLog (r : RowIdx) : (scanColumns r s).lcdLog = s.lcdLog := rfl
@[simp] theorem scanColumns_scanLog (r : RowIdx) :
    (scanColumns r s).scanLog = s.scanLog ++ [⟨r, nextSample s⟩] := rfl
@[simp] theorem scanColumns_inputs (r : RowIdx) : (scanColumns r s).inputs = s.inputs := rfl
@[simp] theorem scanColumns_colDraws (r : RowIdx) : (scanColumns r s).colDraws = s.colDraws.tail := rfl
@[simp] theorem scanColumns_drawCount (r : RowIdx) :
    (scanColumns r s).drawCount = if s.colDraws.isEmpty then s.drawCount + 1 else s.drawCount := rfl
@[simp] theorem scanColumns_trace (r : RowIdx) :
    (scanColumns r s).trace = s.trace ++ [.sample r (nextSample s)] := rfl

/-! Fields after `setInitDone`. -/

@[simp] theorem setInitDone_params : (setInitDone s).params = s.params := rfl
@[simp] theorem setInitDone_rst : (setInitDone s).rst = s.rst := rfl
@[simp] theorem setInitDone_keyres : (setInitDone s).keyres = s.keyres := rfl
@[simp] theorem setInitDone_err : (setInitDone s).err = s.err := rfl
@[simp] theorem setInitDone_initDone : (setInitDone s).initDone = true := rfl
@[simp] theorem setInitDone_cause : (setInitDone s).cause = s.cause := rfl
@[simp] theorem setInitDone_putsRem : (setInitDone s).putsRem = s.putsRem := rfl
@[simp] theorem setInitDone_charCnt : (setInitDone s).charCnt = s.charCnt := rfl
@[simp] theorem setInitDone_lcdD : (setInitDone s).lcdD = s.lcdD := rfl
@[simp] theorem setInitDone_lcdRs : (setInitDone s).lcdRs = s.lcdRs := rfl
@[simp] theorem setInitDone_lcdE : (setInitDone s).lcdE = s.lcdE := rfl
@[simp] theorem setInitDone_lcdRw : (setInitDone s).lcdRw = s.lcdRw := rfl
@[simp] theorem setInitDone_row : (setInitDone s).row = s.row := rfl
@[simp] theorem setInitDone_op : (setInitDone s).op = s.op := rfl
@[simp] theorem setInitDone_lcdLog : (setInitDone s).lcdLog = s.lcdLog := rfl
@[simp] theorem setInitDone_scanLog : (setInitDone s).scanLog = s.scanLog := rfl
@[simp] theorem setInitDone_inputs : (setInitDone s).inputs = s.inputs := rfl
@[simp] theorem setInitDone_colDraws : (setInitDone s).colDraws = s.colDraws := rfl
@[simp] theorem setInitDone_drawCount : (setInitDone s).drawCount = s.drawCount := rfl
@[simp] theorem setInitDone_trace : (setInitDone s).trace = s.trace := rfl

/-! Fields after `setPutsRem`. -/

@[simp] theorem setPutsRem_params (n : BitVec 6) : (setPutsRem n s).params = s.params := rfl
@[simp] theorem setPutsRem_rst (n : BitVec 6) : (setPutsRem n s).rst = s.rst := rfl
@[simp] theorem setPutsRem_keyres (n : BitVec 6) : (setPutsRem n s).keyres = s.keyres := rfl
@[simp] theorem setPutsRem_err (n : BitVec 6) : (setPutsRem n s).err = s.err := rfl
@[simp] theorem setPutsRem_initDone (n : BitVec 6) : (setPutsRem n s).initDone = s.initDone := rfl
@[simp] theorem setPutsRem_cause (n : BitVec 6) : (setPutsRem n s).cause = s.cause := rfl
@[simp] theorem setPutsRem_putsRem (n : BitVec 6) : (setPutsRem n s).putsRem = n := rfl
@[simp] theorem setPutsRem_charCnt (n : BitVec 6) : (setPutsRem n s).charCnt = s.charCnt := rfl
@[simp] theorem setPutsRem_lcdD (n : BitVec 6) : (setPutsRem n s).lcdD = s.lcdD := rfl
@[simp] theorem setPutsRem_lcdRs (n : BitVec 6) : (setPutsRem n s).lcdRs = s.lcdRs := rfl
@[simp] theorem setPutsRem_lcdE (n : BitVec 6) : (setPutsRem n s).lcdE = s.lcdE := rfl
@[simp] theorem setPutsRem_lcdRw (n : BitVec 6) : (setPutsRem n s).lcdRw = s.lcdRw := rfl
@[simp] theorem setPutsRem_row (n : BitVec 6) : (setPutsRem n s).row = s.row := rfl
@[simp] theorem setPutsRem_op (n : BitVec 6) : (setPutsRem n s).op = s.op := rfl
@[simp] theorem setPutsRem_lcdLog (n : BitVec 6) : (setPutsRem n s).lcdLog = s.lcdLog := rfl
@[simp] theorem setPutsRem_scanLog (n : BitVec 6) : (setPutsRem n s).scanLog = s.scanLog := rfl
@[simp] theorem setPutsRem_inputs (n : BitVec 6) : (setPutsRem n s).inputs = s.inputs := rfl
@[simp] theorem setPutsRem_colDraws (n : BitVec 6) : (setPutsRem n s).colDraws = s.colDraws := rfl
@[simp] theorem setPutsRem_drawCount (n : BitVec 6) : (setPutsRem n s).drawCount = s.drawCount := rfl
@[simp] theorem setPutsRem_trace (n : BitVec 6) : (setPutsRem n s).trace = s.trace := rfl

/-! Fields after `setCharCnt`. -/

@[simp] theorem setCharCnt_params (n : BitVec 6) : (setCharCnt n s).params = s.params := rfl
@[simp] theorem setCharCnt_rst (n : BitVec 6) : (setCharCnt n s).rst = s.rst := rfl
@[simp] theorem setCharCnt_keyres (n : BitVec 6) : (setCharCnt n s).keyres = s.keyres := rfl
@[simp] theorem setCharCnt_err (n : BitVec 6) : (setCharCnt n s).err = s.err := rfl
@[simp] theorem setCharCnt_initDone (n : BitVec 6) : (setCharCnt n s).initDone = s.initDone := rfl
@[simp] theorem setCharCnt_cause (n : BitVec 6) : (setCharCnt n s).cause = s.cause := rfl
@[simp] theorem setCharCnt_putsRem (n : BitVec 6) : (setCharCnt n s).putsRem = s.putsRem := rfl
@[simp] theorem setCharCnt_charCnt (n : BitVec 6) : (setCharCnt n s).charCnt = n := rfl
@[simp] theorem setCharCnt_lcdD (n : BitVec 6) : (setCharCnt n s).lcdD = s.lcdD := rfl
@[simp] theorem setCharCnt_lcdRs (n : BitVec 6) : (setCharCnt n s).lcdRs = s.lcdRs := rfl
@[simp] theorem setCharCnt_lcdE (n : BitVec 6) : (setCharCnt n s).lcdE = s.lcdE := rfl
@[simp] theorem setCharCnt_lcdRw (n : BitVec 6) : (setCharCnt n s).lcdRw = s.lcdRw := rfl
@[simp] theorem setCharCnt_row (n : BitVec 6) : (setCharCnt n s).row = s.row := rfl
@[simp] theorem setCharCnt_op (n : BitVec 6) : (setCharCnt n s).op = s.op := rfl
@[simp] theorem setCharCnt_lcdLog (n : BitVec 6) : (setCharCnt n s).lcdLog = s.lcdLog := rfl
@[simp] theorem setCharCnt_scanLog (n : BitVec 6) : (setCharCnt n s).scanLog = s.scanLog := rfl
@[simp] theorem setCharCnt_inputs (n : BitVec 6) : (setCharCnt n s).inputs = s.inputs := rfl
@[simp] theorem setCharCnt_colDraws (n : BitVec 6) : (setCharCnt n s).colDraws = s.colDraws := rfl
@[simp] theorem setCharCnt_drawCount (n : BitVec 6) : (setCharCnt n s).drawCount = s.drawCount := rfl
@[simp] theorem setCharCnt_trace (n : BitVec 6) : (setCharCnt n s).trace = s.trace := rfl

/-! Fields after `decPutsRem`. -/

@[simp] theorem decPutsRem_params : (decPutsRem s).params = s.params := rfl
@[simp] theorem decPutsRem_rst : (decPutsRem s).rst = s.rst := rfl
@[simp] theorem decPutsRem_keyres : (decPutsRem s).keyres = s.keyres := rfl
@[simp] theorem decPutsRem_err : (decPutsRem s).err = s.err := rfl
@[simp] theorem decPutsRem_initDone : (decPutsRem s).initDone = s.initDone := rfl
@[simp] theorem decPutsRem_cause : (decPutsRem s).cause = s.cause := rfl
@[simp] theorem decPutsRem_putsRem :
    (decPutsRem s).putsRem = if s.putsRem = 0#6 then 0#6 else s.putsRem - 1#6 := rfl
@[simp] theorem decPutsRem_charCnt : (decPutsRem s).charCnt = s.charCnt := rfl
@[simp] theorem decPutsRem_lcdD : (decPutsRem s).lcdD = s.lcdD := rfl
@[simp] theorem decPutsRem_lcdRs : (decPutsRem s).lcdRs = s.lcdRs := rfl
@[simp] theorem decPutsRem_lcdE : (decPutsRem s).lcdE = s.lcdE := rfl
@[simp] theorem decPutsRem_lcdRw : (decPutsRem s).lcdRw = s.lcdRw := rfl
@[simp] theorem decPutsRem_row : (decPutsRem s).row = s.row := rfl
@[simp] theorem decPutsRem_op : (decPutsRem s).op = s.op := rfl
@[simp] theorem decPutsRem_lcdLog : (decPutsRem s).lcdLog = s.lcdLog := rfl
@[simp] theorem decPutsRem_scanLog : (decPutsRem s).scanLog = s.scanLog := rfl
@[simp] theorem decPutsRem_inputs : (decPutsRem s).inputs = s.inputs := rfl
@[simp] theorem decPutsRem_colDraws : (decPutsRem s).colDraws = s.colDraws := rfl
@[simp] theorem decPutsRem_drawCount : (decPutsRem s).drawCount = s.drawCount := rfl
@[simp] theorem decPutsRem_trace : (decPutsRem s).trace = s.trace := rfl

/-! Fields after `endPuts`. -/

@[simp] theorem endPuts_params : (endPuts s).params = s.params := rfl
@[simp] theorem endPuts_rst : (endPuts s).rst = s.rst := rfl
@[simp] theorem endPuts_keyres : (endPuts s).keyres = s.keyres := rfl
@[simp] theorem endPuts_err : (endPuts s).err = s.err := rfl
@[simp] theorem endPuts_initDone : (endPuts s).initDone = s.initDone := rfl
@[simp] theorem endPuts_cause : (endPuts s).cause = s.cause := rfl
@[simp] theorem endPuts_putsRem : (endPuts s).putsRem = s.putsRem := rfl
@[simp] theorem endPuts_charCnt : (endPuts s).charCnt = if s.putsRem = 0#6 then 0#6 else s.charCnt := rfl
@[simp] theorem endPuts_lcdD : (endPuts s).lcdD = s.lcdD := rfl
@[simp] theorem endPuts_lcdRs : (endPuts s).lcdRs = s.lcdRs := rfl
@[simp] theorem endPuts_lcdE : (endPuts s).lcdE = s.lcdE := rfl
@[simp] theorem endPuts_lcdRw : (endPuts s).lcdRw = s.lcdRw := rfl
@[simp] theorem endPuts_row : (endPuts s).row = s.row := rfl
@[simp] theorem endPuts_op : (endPuts s).op = s.op := rfl
@[simp] theorem endPuts_lcdLog : (endPuts s).lcdLog = s.lcdLog := rfl
@[simp] theorem endPuts_scanLog : (endPuts s).scanLog = s.scanLog := rfl
@[simp] theorem endPuts_inputs : (endPuts s).inputs = s.inputs := rfl
@[simp] theorem endPuts_colDraws : (endPuts s).colDraws = s.colDraws := rfl
@[simp] theorem endPuts_drawCount : (endPuts s).drawCount = s.drawCount := rfl
@[simp] theorem endPuts_trace : (endPuts s).trace = s.trace := rfl

/-! Fields after `raiseError`. -/

@[simp] theorem raiseError_params (c : BitVec 4) : (raiseError c s).params = s.params := rfl
@[simp] theorem raiseError_rst (c : BitVec 4) : (raiseError c s).rst = s.rst := rfl
@[simp] theorem raiseError_keyres (c : BitVec 4) : (raiseError c s).keyres = s.keyres := rfl
@[simp] theorem raiseError_err (c : BitVec 4) : (raiseError c s).err = true := rfl
@[simp] theorem raiseError_initDone (c : BitVec 4) : (raiseError c s).initDone = s.initDone := rfl
@[simp] theorem raiseError_cause (c : BitVec 4) : (raiseError c s).cause = if s.err then s.cause else c := rfl
@[simp] theorem raiseError_putsRem (c : BitVec 4) : (raiseError c s).putsRem = s.putsRem := rfl
@[simp] theorem raiseError_charCnt (c : BitVec 4) : (raiseError c s).charCnt = s.charCnt := rfl
@[simp] theorem raiseError_lcdD (c : BitVec 4) : (raiseError c s).lcdD = s.lcdD := rfl
@[simp] theorem raiseError_lcdRs (c : BitVec 4) : (raiseError c s).lcdRs = s.lcdRs := rfl
@[simp] theorem raiseError_lcdE (c : BitVec 4) : (raiseError c s).lcdE = s.lcdE := rfl
@[simp] theorem raiseError_lcdRw (c : BitVec 4) : (raiseError c s).lcdRw = s.lcdRw := rfl
@[simp] theorem raiseError_row (c : BitVec 4) : (raiseError c s).row = s.row := rfl
@[simp] theorem raiseError_op (c : BitVec 4) : (raiseError c s).op = s.op := rfl
@[simp] theorem raiseError_lcdLog (c : BitVec 4) : (raiseError c s).lcdLog = s.lcdLog := rfl
@[simp] theorem raiseError_scanLog (c : BitVec 4) : (raiseError c s).scanLog = s.scanLog := rfl
@[simp] theorem raiseError_inputs (c : BitVec 4) : (raiseError c s).inputs = s.inputs := rfl
@[simp] theorem raiseError_colDraws (c : BitVec 4) : (raiseError c s).colDraws = s.colDraws := rfl
@[simp] theorem raiseError_drawCount (c : BitVec 4) : (raiseError c s).drawCount = s.drawCount := rfl
@[simp] theorem raiseError_trace (c : BitVec 4) : (raiseError c s).trace = s.trace := rfl

/-! Fields after `hostRead`. -/

@[simp] theorem hostRead_params (off : Offset) : (hostRead off s).params = s.params := rfl
@[simp] theorem hostRead_rst (off : Offset) : (hostRead off s).rst = s.rst := rfl
@[simp] theorem hostRead_keyres (off : Offset) : (hostRead off s).keyres = s.keyres := rfl
@[simp] theorem hostRead_err (off : Offset) : (hostRead off s).err = s.err := rfl
@[simp] theorem hostRead_initDone (off : Offset) : (hostRead off s).initDone = s.initDone := rfl
@[simp] theorem hostRead_cause (off : Offset) : (hostRead off s).cause = s.cause := rfl
@[simp] theorem hostRead_putsRem (off : Offset) : (hostRead off s).putsRem = s.putsRem := rfl
@[simp] theorem hostRead_charCnt (off : Offset) : (hostRead off s).charCnt = s.charCnt := rfl
@[simp] theorem hostRead_lcdD (off : Offset) : (hostRead off s).lcdD = s.lcdD := rfl
@[simp] theorem hostRead_lcdRs (off : Offset) : (hostRead off s).lcdRs = s.lcdRs := rfl
@[simp] theorem hostRead_lcdE (off : Offset) : (hostRead off s).lcdE = s.lcdE := rfl
@[simp] theorem hostRead_lcdRw (off : Offset) : (hostRead off s).lcdRw = s.lcdRw := rfl
@[simp] theorem hostRead_row (off : Offset) : (hostRead off s).row = s.row := rfl
@[simp] theorem hostRead_op (off : Offset) : (hostRead off s).op = s.op := rfl
@[simp] theorem hostRead_lcdLog (off : Offset) : (hostRead off s).lcdLog = s.lcdLog := rfl
@[simp] theorem hostRead_scanLog (off : Offset) : (hostRead off s).scanLog = s.scanLog := rfl
@[simp] theorem hostRead_inputs (off : Offset) : (hostRead off s).inputs = s.inputs := rfl
@[simp] theorem hostRead_colDraws (off : Offset) : (hostRead off s).colDraws = s.colDraws := rfl
@[simp] theorem hostRead_drawCount (off : Offset) : (hostRead off s).drawCount = s.drawCount := rfl
@[simp] theorem hostRead_trace (off : Offset) :
    (hostRead off s).trace = s.trace ++ [.hostRead off (readWindow off s)] := rfl

/-! Fields after `dropInput`. -/

@[simp] theorem dropInput_params : (dropInput s).params = s.params := rfl
@[simp] theorem dropInput_rst : (dropInput s).rst = s.rst := rfl
@[simp] theorem dropInput_keyres : (dropInput s).keyres = s.keyres := rfl
@[simp] theorem dropInput_err : (dropInput s).err = s.err := rfl
@[simp] theorem dropInput_initDone : (dropInput s).initDone = s.initDone := rfl
@[simp] theorem dropInput_cause : (dropInput s).cause = s.cause := rfl
@[simp] theorem dropInput_putsRem : (dropInput s).putsRem = s.putsRem := rfl
@[simp] theorem dropInput_charCnt : (dropInput s).charCnt = s.charCnt := rfl
@[simp] theorem dropInput_lcdD : (dropInput s).lcdD = s.lcdD := rfl
@[simp] theorem dropInput_lcdRs : (dropInput s).lcdRs = s.lcdRs := rfl
@[simp] theorem dropInput_lcdE : (dropInput s).lcdE = s.lcdE := rfl
@[simp] theorem dropInput_lcdRw : (dropInput s).lcdRw = s.lcdRw := rfl
@[simp] theorem dropInput_row : (dropInput s).row = s.row := rfl
@[simp] theorem dropInput_op : (dropInput s).op = s.op := rfl
@[simp] theorem dropInput_lcdLog : (dropInput s).lcdLog = s.lcdLog := rfl
@[simp] theorem dropInput_scanLog : (dropInput s).scanLog = s.scanLog := rfl
@[simp] theorem dropInput_inputs : (dropInput s).inputs = s.inputs.tail := rfl
@[simp] theorem dropInput_colDraws : (dropInput s).colDraws = s.colDraws := rfl
@[simp] theorem dropInput_drawCount : (dropInput s).drawCount = s.drawCount := rfl
@[simp] theorem dropInput_trace : (dropInput s).trace = s.trace := rfl

/-! Fields after `offerWrite`. -/

@[simp] theorem offerWrite_params (w : Word) : (offerWrite w s).params = s.params := rfl
@[simp] theorem offerWrite_rst (w : Word) : (offerWrite w s).rst = s.rst := rfl
@[simp] theorem offerWrite_keyres (w : Word) : (offerWrite w s).keyres = s.keyres := rfl
@[simp] theorem offerWrite_err (w : Word) : (offerWrite w s).err = s.err := rfl
@[simp] theorem offerWrite_initDone (w : Word) : (offerWrite w s).initDone = s.initDone := rfl
@[simp] theorem offerWrite_cause (w : Word) : (offerWrite w s).cause = s.cause := rfl
@[simp] theorem offerWrite_putsRem (w : Word) : (offerWrite w s).putsRem = s.putsRem := rfl
@[simp] theorem offerWrite_charCnt (w : Word) : (offerWrite w s).charCnt = s.charCnt := rfl
@[simp] theorem offerWrite_lcdD (w : Word) : (offerWrite w s).lcdD = s.lcdD := rfl
@[simp] theorem offerWrite_lcdRs (w : Word) : (offerWrite w s).lcdRs = s.lcdRs := rfl
@[simp] theorem offerWrite_lcdE (w : Word) : (offerWrite w s).lcdE = s.lcdE := rfl
@[simp] theorem offerWrite_lcdRw (w : Word) : (offerWrite w s).lcdRw = s.lcdRw := rfl
@[simp] theorem offerWrite_row (w : Word) : (offerWrite w s).row = s.row := rfl
@[simp] theorem offerWrite_op (w : Word) : (offerWrite w s).op = s.op := rfl
@[simp] theorem offerWrite_lcdLog (w : Word) : (offerWrite w s).lcdLog = s.lcdLog := rfl
@[simp] theorem offerWrite_scanLog (w : Word) : (offerWrite w s).scanLog = s.scanLog := rfl
@[simp] theorem offerWrite_inputs (w : Word) : (offerWrite w s).inputs = .write 0#2 w :: s.inputs := rfl
@[simp] theorem offerWrite_colDraws (w : Word) : (offerWrite w s).colDraws = s.colDraws := rfl
@[simp] theorem offerWrite_drawCount (w : Word) : (offerWrite w s).drawCount = s.drawCount := rfl
@[simp] theorem offerWrite_trace (w : Word) : (offerWrite w s).trace = s.trace := rfl

/-! Fields after `resetBlock`. -/

@[simp] theorem resetBlock_params (b : Bool) : (resetBlock b s).params = s.params := rfl
@[simp] theorem resetBlock_rst (b : Bool) : (resetBlock b s).rst = b := rfl
@[simp] theorem resetBlock_keyres (b : Bool) : (resetBlock b s).keyres = State.reset.keyres := rfl
@[simp] theorem resetBlock_err (b : Bool) : (resetBlock b s).err = State.reset.err := rfl
@[simp] theorem resetBlock_initDone (b : Bool) : (resetBlock b s).initDone = State.reset.initDone := rfl
@[simp] theorem resetBlock_cause (b : Bool) : (resetBlock b s).cause = State.reset.cause := rfl
@[simp] theorem resetBlock_putsRem (b : Bool) : (resetBlock b s).putsRem = State.reset.putsRem := rfl
@[simp] theorem resetBlock_charCnt (b : Bool) : (resetBlock b s).charCnt = State.reset.charCnt := rfl
@[simp] theorem resetBlock_lcdD (b : Bool) : (resetBlock b s).lcdD = State.reset.lcdD := rfl
@[simp] theorem resetBlock_lcdRs (b : Bool) : (resetBlock b s).lcdRs = State.reset.lcdRs := rfl
@[simp] theorem resetBlock_lcdE (b : Bool) : (resetBlock b s).lcdE = State.reset.lcdE := rfl
@[simp] theorem resetBlock_lcdRw (b : Bool) : (resetBlock b s).lcdRw = State.reset.lcdRw := rfl
@[simp] theorem resetBlock_row (b : Bool) : (resetBlock b s).row = State.reset.row := rfl
@[simp] theorem resetBlock_op (b : Bool) : (resetBlock b s).op = State.reset.op := rfl
@[simp] theorem resetBlock_lcdLog (b : Bool) : (resetBlock b s).lcdLog = State.reset.lcdLog := rfl
@[simp] theorem resetBlock_scanLog (b : Bool) : (resetBlock b s).scanLog = State.reset.scanLog := rfl
@[simp] theorem resetBlock_inputs (b : Bool) : (resetBlock b s).inputs = s.inputs := rfl
@[simp] theorem resetBlock_colDraws (b : Bool) : (resetBlock b s).colDraws = s.colDraws := rfl
@[simp] theorem resetBlock_drawCount (b : Bool) : (resetBlock b s).drawCount = s.drawCount := rfl
@[simp] theorem resetBlock_trace (b : Bool) : (resetBlock b s).trace = s.trace ++ [.rst b] := rfl

end

end Sys2Proof.Machine
end

