-- ==== Sys2Proof/Laws/Ops.lean ====
section
/-! SUPPORT. What the shared operations can do, said once: running a sequence of elementary steps, sending a
nibble and a byte, pausing and finishing an operation, the error action. -/

namespace Sys2Proof.Machine

@[simp] theorem runPrims_nil (s : State) : runPrims [] s = s := rfl

@[simp] theorem runPrims_cons (m : Prim) (ms : List Prim) (s : State) :
    runPrims (m :: ms) s = runPrims ms (runPrim m s) := rfl

theorem runPrims_append (ms ns : List Prim) (s : State) :
    runPrims (ms ++ ns) s = runPrims ns (runPrims ms s) := by
  induction ms generalizing s with
  | nil => rfl
  | cons m ms ih => exact ih (runPrim m s)

/-- A property that every elementary step keeps, every sequence of them keeps. -/
theorem runPrims_keeps {P : State → Prop} (hstep : ∀ m s, P s → P (runPrim m s)) (ms : List Prim) :
    ∀ s, P s → P (runPrims ms s) := by
  induction ms with
  | nil => exact fun _ h => h
  | cons m ms ih => exact fun s h => ih _ (hstep m s h)

/-- The fields that no elementary step touches. -/
theorem runPrim_untouched (m : Prim) (s : State) :
    (runPrim m s).params = s.params ∧ (runPrim m s).rst = s.rst ∧ (runPrim m s).err = s.err ∧
      (runPrim m s).cause = s.cause ∧ (runPrim m s).lcdRw = s.lcdRw ∧ (runPrim m s).op = s.op ∧
      (runPrim m s).inputs = s.inputs := by
  cases m <;> exact ⟨rfl, rfl, rfl, rfl, rfl, rfl, rfl⟩

/-- The fields that no operation touches. -/
theorem runPrims_untouched (ms : List Prim) (s : State) :
    (runPrims ms s).params = s.params ∧ (runPrims ms s).rst = s.rst ∧ (runPrims ms s).err = s.err ∧
      (runPrims ms s).cause = s.cause ∧ (runPrims ms s).lcdRw = s.lcdRw ∧ (runPrims ms s).op = s.op ∧
      (runPrims ms s).inputs = s.inputs := by
  refine runPrims_keeps (P := fun t => t.params = s.params ∧ t.rst = s.rst ∧ t.err = s.err ∧
    t.cause = s.cause ∧ t.lcdRw = s.lcdRw ∧ t.op = s.op ∧ t.inputs = s.inputs) ?_ ms s
    ⟨rfl, rfl, rfl, rfl, rfl, rfl, rfl⟩
  intro m t h
  obtain ⟨h1, h2, h3, h4, h5, h6, h7⟩ := runPrim_untouched m t
  obtain ⟨g1, g2, g3, g4, g5, g6, g7⟩ := h
  exact ⟨h1.trans g1, h2.trans g2, h3.trans g3, h4.trans g4, h5.trans g5, h6.trans g6, h7.trans g7⟩

/-- Operations only add to what was observed. -/
theorem runPrims_trace (ms : List Prim) (s : State) : ∃ es, (runPrims ms s).trace = s.trace ++ es := by
  induction ms generalizing s with
  | nil => exact ⟨[], (List.append_nil _).symm⟩
  | cons m ms ih =>
    obtain ⟨es, hes⟩ := ih (runPrim m s)
    have hm : ∃ e, (runPrim m s).trace = s.trace ++ e := by cases m <;> simp [runPrim]
    obtain ⟨e, he⟩ := hm
    exact ⟨e ++ es, by rw [runPrims_cons, hes, he, List.append_assoc]⟩

/-- A nibble transfer (R131): one LCD_LOG entry, whatever LCD_E was before; LCD_E ends low. -/
theorem runPrims_nibProgram (p : Params) (rs : Bool) (n : Nibble) (s : State) :
    runPrims (nibProgram p rs n) s =
      { s with
        lcdRs := rs, lcdD := n, lcdE := false
        lcdLog := s.lcdLog ++ [⟨rs, n⟩]
        trace := s.trace ++ nibEvents p rs n } := by
  simp [nibProgram, nibEvents, runPrim, setRs, setD, setE, waitFor, transferOf]

/-- A byte (R132): two LCD_LOG entries, high nibble first, with one RS. -/
theorem runPrims_sendProgram (p : Params) (v : Byte) (rs : Bool) (s : State) :
    runPrims (sendProgram p v rs) s =
      { s with
        lcdRs := rs, lcdD := lowNibble v, lcdE := false
        lcdLog := s.lcdLog ++ byteLog rs v
        trace := s.trace ++ byteEvents p rs v (settle p v rs) } := by
  simp [sendProgram, runPrims_append, runPrims_nibProgram, runPrim, waitFor, byteLog, byteEvents]

/-- No elementary step reads or writes the operation in progress. -/
theorem runPrims_withOp (ms : List Prim) (s : State) (o : List Prim) :
    runPrims ms { s with op := o } = { runPrims ms s with op := o } := by
  induction ms generalizing s with
  | nil => rfl
  | cons m ms ih =>
    have h : runPrim m { s with op := o } = { runPrim m s with op := o } := by cases m <;> rfl
    rw [runPrims_cons, h, ih, runPrims_cons]

/-- Pausing after `k` steps and finishing is running the whole operation. -/
theorem finishOp_beginOp (ms : List Prim) (k : Nat) (s : State) :
    finishOp (beginOp ms k s) = { runPrims ms s with op := [] } := by
  show { runPrims (ms.drop k) { runPrims (ms.take k) s with op := ms.drop k } with op := [] } = _
  rw [runPrims_withOp, ← runPrims_append, List.take_append_drop]

/-- With no operation in progress there is nothing to finish. -/
theorem finishOp_of_op_nil {s : State} (h : s.op = []) : finishOp s = s := by
  cases s; subst h; rfl

/-- The error action keeps the first cause (R201, R204). -/
theorem raiseError_of_err {c : BitVec 4} {s : State} (h : s.err = true) : raiseError c s = s := by
  cases s; subst h; rfl

end Sys2Proof.Machine
end

