-- ==== Sys2Proof/Laws/Access.lean ====
section
/-! SUPPORT. What exec and a step can do, said once. -/

namespace Sys2Proof.Machine

/-- Every operation is its program, run to its end. -/
theorem exec_eq_runPrims (i : Instr) (s : State) : exec i s = .next (runPrims (programOf i s) s) := by
  cases i <;> rfl

/-- A word written to CMD either runs its operation or takes the error action (R71). -/
theorem acceptWord_cases (w : Word) (s : State) :
    (∃ i, decode (inPayload s) w = .ok i ∧
      acceptWord w s = .next (runPrims (programOf i s) s)) ∨
    (∃ e, decode (inPayload s) w = .error e ∧
      acceptWord w s = .next (raiseError (causeCode e) s)) := by
  cases h : decode (inPayload s) w with
  | ok i => exact .inl ⟨i, rfl, by simp [acceptWord, h, exec_eq_runPrims]⟩
  | error e => exact .inr ⟨e, rfl, by simp [acceptWord, h]⟩

/-- A paused write either begins its operation or takes the error action. -/
theorem acceptPaused_cases (w : Word) (k : Nat) (s : State) :
    (∃ i, decode (inPayload s) w = .ok i ∧
      acceptPaused w k s = .next (beginOp (programOf i s) k s)) ∨
    (∃ e, decode (inPayload s) w = .error e ∧
      acceptPaused w k s = .next (raiseError (causeCode e) s)) := by
  cases h : decode (inPayload s) w with
  | ok i => exact .inl ⟨i, rfl, by simp [acceptPaused, h]⟩
  | error e => exact .inr ⟨e, rfl, by simp [acceptPaused, h]⟩

/-- Everything a step can do: one constructor per kind of next state. -/
inductive StepTo (s : State) : State → Prop where
  | reset (rest : List Input) (hi : s.inputs = .rst true :: rest) :
      StepTo s (resetBlock true (dropInput s))
  | finish (ho : s.op ≠ []) : StepTo s (finishOp s)
  | idle (ho : s.op = []) (hi : s.inputs = []) : StepTo s s
  | read (off : Offset) (rest : List Input) (ho : s.op = []) (hi : s.inputs = .read off :: rest) :
      StepTo s (hostRead off (dropInput s))
  | release (rest : List Input) (ho : s.op = []) (hi : s.inputs = .rst false :: rest) :
      StepTo s (releaseRst (dropInput s))
  | ignored (x : Input) (rest : List Input) (ho : s.op = []) (hi : s.inputs = x :: rest)
      (hx : s.rst = true ∨ ∃ off v, x = .write off v ∧ off ≠ 0#2) : StepTo s (dropInput s)
  | run (w : Word) (rest : List Input) (i : Instr) (ho : s.op = []) (hr : s.rst = false)
      (hi : s.inputs = .write 0#2 w :: rest) (hd : decode (inPayload s) w = .ok i) :
      StepTo s (runPrims (programOf i (dropInput s)) (dropInput s))
  | pause (w : Word) (k : Nat) (rest : List Input) (i : Instr) (ho : s.op = []) (hr : s.rst = false)
      (hi : s.inputs = .writePaused w k :: rest) (hd : decode (inPayload s) w = .ok i) :
      StepTo s (beginOp (programOf i (dropInput s)) k (dropInput s))
  | reject (x : Input) (w : Word) (rest : List Input) (e : DecodeError) (ho : s.op = [])
      (hr : s.rst = false) (hi : s.inputs = x :: rest)
      (hx : x = .write 0#2 w ∨ ∃ k, x = .writePaused w k)
      (hd : decode (inPayload s) w = .error e) : StepTo s (raiseError (causeCode e) (dropInput s))

@[simp] theorem inPayload_dropInput (s : State) : inPayload (dropInput s) = inPayload s := rfl

/-- A step is one of the cases of `StepTo`. -/
theorem step_cases {s t : State} (h : step s = .next t) : StepTo s t := by
  unfold step advance at h
  split at h
  · rename_i rest hi
    cases h; exact .reset rest hi
  · rename_i ho _
    cases h; exact .finish (by rw [ho]; exact List.cons_ne_nil _ _)
  · rename_i x rest _ hi ho
    cases x with
    | read off => cases h; exact .read off rest ho hi
    | rst b =>
      cases b with
      | true => cases h; exact .reset rest hi
      | false => cases h; exact .release rest ho hi
    | write off v =>
      cases hr : s.rst with
      | true =>
        simp only [takeInput, hostWrite, dropInput_rst, hr, if_true] at h
        cases h; exact .ignored _ rest ho hi (.inl hr)
      | false =>
        by_cases hoff : off = 0#2
        · subst hoff
          simp only [takeInput, hostWrite, dropInput_rst, hr, Bool.false_eq_true, if_false] at h
          rcases acceptWord_cases v (dropInput s) with ⟨i, hd, ha⟩ | ⟨e, hd, ha⟩
          · cases ha.symm.trans h; exact .run v rest i ho hr hi hd
          · cases ha.symm.trans h; exact .reject _ v rest e ho hr hi (.inl rfl) hd
        · have ht : hostWrite off v (dropInput s) = .next (dropInput s) := by
            simp only [hostWrite, dropInput_rst, hr, Bool.false_eq_true, if_false]
          cases ht.symm.trans h; exact .ignored _ rest ho hi (.inr ⟨off, v, rfl, hoff⟩)
    | writePaused w k =>
      cases hr : s.rst with
      | true =>
        simp only [takeInput, dropInput_rst, hr, if_true] at h
        cases h; exact .ignored _ rest ho hi (.inl hr)
      | false =>
        simp only [takeInput, dropInput_rst, hr, Bool.false_eq_true, if_false] at h
        rcases acceptPaused_cases w k (dropInput s) with ⟨i, hd, ha⟩ | ⟨e, hd, ha⟩
        · cases ha.symm.trans h; exact .pause w k rest i ho hr hi hd
        · cases ha.symm.trans h; exact .reject _ w rest e ho hr hi (.inr ⟨k, rfl⟩) hd
  · rename_i hi ho
    cases h; exact .idle ho hi

/-- A property that every elementary step, every host access, the error action and reset keep, and that does not
speak of the operation in progress, every step keeps. -/
theorem step_keeps {P : State → Prop} (hprim : ∀ m s, P s → P (runPrim m s))
    (hop : ∀ o s, P s → P { s with op := o }) (hread : ∀ off s, P s → P (hostRead off s))
    (hdrop : ∀ s, P s → P (dropInput s)) (herr : ∀ e s, P s → P (raiseError (causeCode e) s))
    (hreset : ∀ b s, P s → P (resetBlock b s)) {s t : State} (hs : P s) (h : step s = .next t) : P t := by
  cases step_cases h with
  | reset rest hi => exact hreset _ _ (hdrop _ hs)
  | finish ho => exact hop _ _ (runPrims_keeps hprim _ _ hs)
  | idle ho hi => exact hs
  | read off rest ho hi => exact hread _ _ (hdrop _ hs)
  | release rest ho hi =>
    unfold releaseRst
    split
    · exact hreset _ _ (hdrop _ hs)
    · exact hdrop _ hs
  | ignored x rest ho hi hx => exact hdrop _ hs
  | run w rest i ho hr hi hd => exact runPrims_keeps hprim _ _ (hdrop _ hs)
  | pause w k rest i ho hr hi hd => exact hop _ _ (runPrims_keeps hprim _ _ (hdrop _ hs))
  | reject x w rest e ho hr hi hx hd => exact herr _ _ (hdrop _ hs)

end Sys2Proof.Machine
end

