-- ==== Sys2Proof/Laws/Decode.lean ====
section
/-! SUPPORT. Reading a field back from a word written as a concatenation (R10, R70). -/

namespace Sys2Proof

/-- The high part of `{x, y}`. -/
theorem extract_append_high {m n : Nat} (x : BitVec n) (y : BitVec m) :
    (x ++ y).extractLsb' m n = x := by
  ext i hi
  simp [BitVec.getLsbD_append, BitVec.getLsbD_eq_getElem hi]

/-- The low part of `{x, y}`. -/
theorem extract_append_low {m n : Nat} (x : BitVec n) (y : BitVec m) :
    (x ++ y).extractLsb' 0 m = y := by
  ext i hi
  simp [BitVec.getLsbD_append, hi]

/-- A field of a word as a number (R10). -/
theorem field_toNat (w : Word) (lo len : Nat) : (field w lo len).toNat = w.toNat / 2 ^ lo % 2 ^ len := by
  simp [field, Nat.shiftRight_eq_div_pow]

/-- A field has a value when the number it holds is that value's. -/
theorem field_eq {w : Word} {lo len : Nat} {c : BitVec len} (h : w.toNat / 2 ^ lo % 2 ^ len = c.toNat) :
    field w lo len = c :=
  BitVec.eq_of_toNat_eq ((field_toNat w lo len).trans h)

/-- The decoder by the operation code OP = w[15:12] as a number (R71): the one arm that applies. -/
theorem decodeIdle_by_op (w : Word) :
    (w.toNat / 4096 = 0 → decodeIdle w = unlessReserved (field w 0 12) .nop) ∧
    (w.toNat / 4096 = 1 → decodeIdle w = unlessReserved (field w 0 12) .lcdInit) ∧
    (w.toNat / 4096 = 2 → decodeIdle w = unlessReserved (field w 8 4) (.lcdCmd (field w 0 8))) ∧
    (w.toNat / 4096 = 3 → decodeIdle w = unlessReserved (field w 8 4) (.lcdData (field w 0 8))) ∧
    (w.toNat / 4096 = 4 → decodeIdle w =
      if field w 6 6 ≠ 0 then .error .reservedBits
      else if Config.maxPuts < (field w 0 6).toNat then .error .putsTooLong
      else .ok (.lcdPuts (field w 0 6))) ∧
    (w.toNat / 4096 = 5 → decodeIdle w = unlessReserved (field w 2 10) (.keyScan (field w 0 2))) ∧
    (w.toNat / 4096 = 6 → decodeIdle w = .ok (.wait (field w 0 12))) ∧
    (7 ≤ w.toNat / 4096 → decodeIdle w = .error .reservedOp) := by
  have hlt := w.isLt
  have op (c : BitVec 4) (h : w.toNat / 4096 = c.toNat) : field w 12 4 = c := field_eq (by omega)
  have opNat : (field w 12 4).toNat = w.toNat / 4096 := by rw [field_toNat]; omega
  refine ⟨fun h => ?_, fun h => ?_, fun h => ?_, fun h => ?_, fun h => ?_, fun h => ?_, fun h => ?_,
    fun h => ?_⟩ <;> unfold decodeIdle
  · rw [op 0#4 h]; rfl
  · rw [op 1#4 h]; rfl
  · rw [op 2#4 h]; rfl
  · rw [op 3#4 h]; rfl
  · rw [op 4#4 h]; rfl
  · rw [op 5#4 h]; rfl
  · rw [op 6#4 h]; rfl
  · split
    case h_8 => rfl
    all_goals rename_i hop; rw [hop] at opNat; simp at opNat; omega

end Sys2Proof
end

