-- ==== Sys2Proof/Laws/Lcd.lean ====
section
/-! SUPPORT. What the wrap of PUTS.CHAR (R139, R140) and a round of LCD.INIT (R136) can do. -/

namespace Sys2Proof.Machine

/-- LAZY wraps before the character that follows 16 others. -/
theorem wrapsBefore_iff (s : State) :
    wrapsBefore s = true ↔ s.params.wrapPolicy = .lazy ∧ s.charCnt = 16#6 := by
  exact decide_eq_true_iff

/-- EAGER wraps after the 16th character. -/
theorem wrapsAfter_iff (s : State) :
    wrapsAfter s = true ↔ s.params.wrapPolicy = .eager ∧ s.charCnt = 15#6 := by
  have h : s.charCnt + 1#6 = 16#6 ↔ s.charCnt = 15#6 := by
    generalize s.charCnt = n
    revert n
    decide
  exact decide_eq_true_iff.trans (and_congr_right fun _ => h)

/-- Never both in one character: R139 sends at most one WRAP_CMD. -/
theorem not_wrapsBefore_and_wrapsAfter (s : State) : ¬(wrapsBefore s = true ∧ wrapsAfter s = true) := by
  rw [wrapsBefore_iff, wrapsAfter_iff]
  rintro ⟨⟨hl, _⟩, he, _⟩
  rw [hl] at he
  cases he

/-- The wrap sends WRAP_CMD where it is due and else nothing. -/
theorem runPrims_wrapProgram (p : Params) (due : Bool) (s : State) :
    runPrims (wrapProgram p due) s =
      if due then
        { s with
          lcdRs := false, lcdD := lowNibble Config.wrapCmd, lcdE := false
          lcdLog := s.lcdLog ++ byteLog false Config.wrapCmd
          trace := s.trace ++ byteEvents p false Config.wrapCmd (settle p Config.wrapCmd false) }
      else s := by
  cases due
  · rfl
  · exact runPrims_sendProgram p Config.wrapCmd false s

/-- One round of LCD.INIT (R136): a command byte, its settle and its extra wait. -/
theorem runPrims_initRound (p : Params) (k : Fin 5) (s : State) :
    runPrims (initRound p k) s =
      { s with
        lcdRs := false, lcdD := lowNibble p.initSeq[k], lcdE := false
        lcdLog := s.lcdLog ++ byteLog false p.initSeq[k]
        trace := s.trace ++
          (byteEvents p false p.initSeq[k] (settle p p.initSeq[k] false) ++ [.wait p.tInit[k]]) } := by
  rw [initRound, runPrims_append, runPrims_sendProgram, runPrims_cons, runPrims_nil, ← List.append_assoc]
  rfl

end Sys2Proof.Machine
end

