-- ==== Sys2Proof/Laws/PerInstr.lean ====
section
/-! SUPPORT. Facts about every operation as syntax, one lemma per constructor. -/

namespace Sys2Proof.Laws

/-- The mask of an operation's row in spec/opcode_table.json (R72). -/
def rowMask : Instr → Word
  | .nop | .lcdInit => 0xFFFF#16
  | .lcdCmd _ | .lcdData _ => 0xFF00#16
  | .lcdPuts _ => 0xFFC0#16
  | .keyScan _ => 0xFFFC#16
  | .wait _ => 0xF000#16
  | .putsChar _ _ => 0x0000#16

/-- The match of an operation's row in spec/opcode_table.json (R72). -/
def rowMatch : Instr → Word
  | .nop => 0x0000#16
  | .lcdInit => 0x1000#16
  | .lcdCmd _ => 0x2000#16
  | .lcdData _ => 0x3000#16
  | .lcdPuts _ => 0x4000#16
  | .keyScan _ => 0x5000#16
  | .wait _ => 0x6000#16
  | .putsChar _ _ => 0x0000#16

/-- The encoded word matches its row: (w & mask) = match (R72). -/
def TableRow.Statement (i : Instr) : Prop := encode i &&& rowMask i = rowMatch i

theorem TableRow.nop : TableRow.Statement .nop := by unfold TableRow.Statement; decide

theorem TableRow.lcdInit : TableRow.Statement .lcdInit := by unfold TableRow.Statement; decide

theorem TableRow.lcdCmd (v : Byte) : TableRow.Statement (.lcdCmd v) := by
  revert v; unfold TableRow.Statement; decide

theorem TableRow.lcdData (v : Byte) : TableRow.Statement (.lcdData v) := by
  revert v; unfold TableRow.Statement; decide

theorem TableRow.lcdPuts (len : BitVec 6) : TableRow.Statement (.lcdPuts len) := by
  revert len; unfold TableRow.Statement; decide

theorem TableRow.keyScan (r : RowIdx) : TableRow.Statement (.keyScan r) := by
  revert r; unfold TableRow.Statement; decide

theorem TableRow.wait (n : BitVec 12) : TableRow.Statement (.wait n) := by
  show (0x6#4 ++ n) &&& 0xF000#16 = 0x6000#16
  rw [show (0xF000#16 : Word) = 0xF#4 ++ 0#12 from rfl, BitVec.and_append, BitVec.and_zero]
  rfl

theorem TableRow.putsChar (c ignored : Byte) : TableRow.Statement (.putsChar c ignored) :=
  BitVec.and_zero

end Sys2Proof.Laws
end

