-- ==== Sys2Proof/Tests/Slice0.lean ====
section
/-! SUPPORT. Tests. Expected results come from spec/95_test_vectors.md (the vector is named) or from the rule named.
The witnesses at the end meet the hypotheses of the statements. -/

namespace Sys2Proof.Tests

open Sys2Proof.Machine

/-! Well-formedness: the ill-formed term of each check is refused. -/

theorem test_wellFormed_refuses_puts_33 : (Instr.lcdPuts 33#6).wellFormed = false := by decide

theorem test_wellFormed_takes_puts_32 : (Instr.lcdPuts 32#6).wellFormed = true := by decide

theorem test_admitted_refuses_char_outside_puts : (Instr.putsChar 0x41#8 0x00#8).admitted false = false := by decide

theorem test_admitted_refuses_operation_inside_puts : (Instr.keyScan 0#2).admitted true = false := by decide

/-! Decoding: each operation's word written out bit by bit from R70, and words the decoder rejects. -/

theorem test_decode_nop : decode false 0b0000000000000000#16 = .ok .nop := by decide

theorem test_decode_lcdInit : decode false 0b0001000000000000#16 = .ok .lcdInit := by decide

theorem test_decode_lcdCmd : decode false 0b0010000011000001#16 = .ok (.lcdCmd 0b11000001#8) := by decide

theorem test_decode_lcdData : decode false 0b0011000001000111#16 = .ok (.lcdData 0b01000111#8) := by decide

theorem test_decode_lcdPuts : decode false 0b0100000000100000#16 = .ok (.lcdPuts 0b100000#6) := by decide

theorem test_decode_keyScan : decode false 0b0101000000000010#16 = .ok (.keyScan 0b10#2) := by decide

theorem test_decode_wait : decode false 0b0110111111111110#16 = .ok (.wait 0b111111111110#12) := by decide

theorem test_decode_putsChar : decode true 0b0111000001000111#16 = .ok (.putsChar 0b01000111#8 0b01110000#8) := by
  decide

/-- E-01, E-03. -/
theorem test_reject_reserved_op :
    decode false 0x7000#16 = .error .reservedOp ∧ decode false 0xF123#16 = .error .reservedOp := by decide

/-- E-06, E-07, E-08, E-09, E-10, E-11, E-16. -/
theorem test_reject_reserved_bits :
    [0x0FFF#16, 0x1001#16, 0x2100#16, 0x3F41#16, 0x4040#16, 0x4061#16, 0x5FFF#16].map (decode false) =
      List.replicate 7 (.error .reservedBits) := by decide

/-- E-13, E-14. -/
theorem test_reject_long_puts :
    decode false 0x4021#16 = .error .putsTooLong ∧ decode false 0x403F#16 = .error .putsTooLong := by decide

/-- R77: what the assembler writes for a few statements. -/
theorem test_encode : encode (.keyScan 1#2) = 0x5001#16 ∧ encode (.wait 100#12) = 0x6064#16 ∧
    encode (.lcdPuts 17#6) = 0x4011#16 ∧ encode (.putsChar 0x41#8 0x00#8) = 0x0041#16 := by decide

/-! One step on a small state. -/

/-- The state one step leads to. -/
def next (s : State) : State :=
  match step s with
  | .next t => t
  | _ => s

/-- The state after one host write to CMD. -/
def wrote (w : Word) (s : State) : State := next { s with inputs := [.write 0#2 w] }

/-- A PUTS at its `n`-th character with one more to come. -/
def inPuts (n : BitVec 6) : State := { State.reset with putsRem := 1#6, charCnt := n }

/-- W-01. -/
theorem test_nop : wrote 0x0000#16 State.reset = State.reset := by decide

/-- W-03. -/
theorem test_wait : waitUnits (wrote 0x6064#16 State.reset).trace = 100 := by decide

/-- LC-01, LC-26. -/
theorem test_lcdCmd : let t := wrote 0x20AB#16 State.reset
    t.lcdLog = [⟨false, 0xA#4⟩, ⟨false, 0xB#4⟩] ∧ t.lcdD = 0xB#4 ∧ t.lcdE = false := by decide

/-- LC-27: the long settle of LC-03. -/
theorem test_lcdCmd_long : waitUnits (wrote 0x2001#16 State.reset).trace = 4 := by decide

/-- LC-02, LC-26. -/
theorem test_lcdData : let t := wrote 0x30AB#16 State.reset
    t.lcdLog = [⟨true, 0xA#4⟩, ⟨true, 0xB#4⟩] ∧ t.lcdRs = true := by decide

/-- LC-08: data 0x01 never settles long. -/
theorem test_lcdData_short : waitUnits (wrote 0x3001#16 State.reset).trace = 3 := by decide

/-- LC-12. -/
theorem test_lcdInit : let t := wrote 0x1000#16 State.reset
    t.lcdLog.map (·.nibble) = [0x2#4, 0x8#4, 0x2#4, 0x8#4, 0x0#4, 0xC#4, 0x0#4, 0x6#4, 0x0#4, 0x1#4] ∧
      statusWord t = 0x0002#16 := by decide

/-- LC-27. -/
theorem test_lcdInit_time : waitUnits (wrote 0x1000#16 State.reset).trace = 16 := by decide

/-- R138's example. -/
theorem test_lcdPuts : statusWord (wrote 0x4005#16 State.reset) = 0x0500#16 := by decide

/-- LC-14. -/
theorem test_lcdPuts_empty : wrote 0x4000#16 State.reset = State.reset := by decide

/-- R139's example: the 17th character under LAZY. -/
theorem test_putsChar_wraps : let t := wrote 0x0047#16 (inPuts 16#6)
    t.lcdLog = [⟨false, 0xC#4⟩, ⟨false, 0x0#4⟩, ⟨true, 0x4#4⟩, ⟨true, 0x7#4⟩] ∧ t.charCnt = 0#6 := by decide

/-- LC-20: an operation word inside a PUTS prints its low byte. -/
theorem test_putsChar_never_decoded : let t := wrote 0x5000#16 (inPuts 0#6)
    t.lcdLog = [⟨true, 0x0#4⟩, ⟨true, 0x0#4⟩] ∧ t.row = 0#4 ∧ t.putsRem = 0#6 := by decide

/-- K-07. -/
theorem test_keyScan : let t := wrote 0x5001#16 { State.reset with colDraws := [0b0100#4] }
    t.keyres = 0x9436#16 ∧ t.row = 0b0010#4 ∧ t.scanLog = [⟨1#2, 0x4#4⟩] := by decide

/-- K-21. -/
theorem test_keyScan_two_columns :
    (wrote 0x5003#16 { State.reset with colDraws := [0b1010#4] }).keyres = 0x3A00#16 := by decide

/-- E-11. -/
theorem test_error_first_check : statusWord (wrote 0x4061#16 State.reset) = 0x0021#16 := by decide

/-- E-18: the first cause is kept. -/
theorem test_error_first_kept :
    statusWord (wrote 0x7000#16 { State.reset with err := true, cause := 3#4 }) = 0x0031#16 := by decide

/-- H-04: a write to STATUS is ignored. -/
theorem test_stray_write :
    (next { State.reset with err := true, inputs := [.write 2#2 0xFFFF#16] }).err = true := by decide

/-- H-06. -/
theorem test_read_status :
    (next { State.reset with putsRem := 3#6, inputs := [.read 2#2] }).trace = [.hostRead 2#2 0x0300#16] := by decide

/-- R-06: after the first rise of E, RST makes E fall without a transfer. -/
theorem test_rst_cuts_byte :
    let p := next { State.reset with inputs := [.writePaused 0x20AB#16 4, .rst true] }
    p.lcdE = true ∧ (next p).lcdE = false ∧ (next p).lcdLog = [] ∧ (next p).op = [] := by decide

/-- L1-2 on the display model: the 17th character stands at the start of line 2. -/
theorem test_display_line2 :
    (Display.blank.after (putsLog .lazy ((List.range 17).map fun k => BitVec.ofNat 8 (0x41 + k)))).charAt 0x40#7 =
      0x51#8 := by decide

/-- The host's fetch: the placed word is the first to run. -/
theorem test_withFetchWord : (next (State.reset.withFetchWord 16 0x3041)).lcdLog =
    [⟨true, 0x4#4⟩, ⟨true, 0x1#4⟩] := by decide

theorem test_decodeTableWord : decodeTableWord 16 0x20AB = some (.lcdCmd 0xAB#8) ∧
    decodeTableWord 16 0x7000 = none ∧ decodeTableWord 32 0x20AB = none := by decide

/-! Witnesses: concrete states and operands that meet the hypotheses of each statement together, with one for each
clause, at a boundary of its range where it has one. -/

/-- A host write of `w` comes next, and a read of STATUS after it. -/
def writing (w : Word) : State := { State.reset with inputs := [.write 0#2 w, .read 2#2] }

/-- A host write of LCD.CMD 0xAB that is looked at after 4 steps, with E high; `x` comes after it. -/
def pausing (x : Input) : State := { State.reset with inputs := [.writePaused 0x20AB#16 4, x] }

/-- The middle of that operation. -/
def midway (x : Input) : State := next (pausing x)

theorem witness_AssertedRstResetsAtOnce : (midway (.rst true)).inputs = [.rst true] ∧ (midway (.rst true)).op ≠ [] := by
  decide

theorem witness_ReleasedRstLeavesTheBlockIdle (b : Bool) :
    let s : State := { State.reset with rst := b, inputs := [.rst false] }
    s.op = [] ∧ s.inputs = [.rst false] ∧ s.rst = b := ⟨rfl, rfl, rfl⟩

/-- Every place of the cut: before the first step, in the middle, and past the last one. -/
theorem witness_RstCutsAnOperationShort (k : Nat) :
    let s : State := { State.reset with inputs := [.writePaused 0x20AB#16 k, .rst true] }
    s.op = [] ∧ s.rst = false ∧ s.inputs = [.writePaused 0x20AB#16 k, .rst true] ∧
      decode (decide (s.putsRem ≠ 0#6)) 0x20AB#16 = .ok (.lcdCmd 0xAB#8) := 
  ⟨rfl, rfl, rfl, (by decide : decode false 0x20AB#16 = .ok (.lcdCmd 0xAB#8))⟩

/-- R131, R231: cut after LCD_E rises, the nibble is presented and strobed, and nothing of the rest is seen. -/
theorem test_rst_cuts_after_four_steps : (next (midway (.rst true))).trace =
    [.rs false, .data 0xA#4, .wait 0, .e true, .rst true] := by decide

theorem witness_PausedWriteEndsAsTheWholeWrite : let s := pausing (.read 2#2)
    s.op = [] ∧ s.rst = false ∧ s.inputs = [.writePaused 0x20AB#16 4, .read 2#2] ∧
      step s = .next (midway (.read 2#2)) ∧ (midway (.read 2#2)).op ≠ [] ∧
      ∀ r, [Input.read 2#2] ≠ .rst true :: r :=
  ⟨rfl, rfl, rfl, rfl, by decide, fun _ h => by cases h⟩

theorem witness_OpcodeMapNamesEachOperation :
    0x0000#16 &&& 0xFFFF#16 = 0x0000#16 ∧ 0x1000#16 &&& 0xFFFF#16 = 0x1000#16 ∧
    0x20FF#16 &&& 0xFF00#16 = 0x2000#16 ∧ 0x3000#16 &&& 0xFF00#16 = 0x3000#16 ∧
    (0x4020#16 &&& 0xFFC0#16 = 0x4000#16 ∧ (0x4020#16).toNat % 64 ≤ 32) ∧
    0x5003#16 &&& 0xFFFC#16 = 0x5000#16 ∧ 0x6FFF#16 &&& 0xF000#16 = 0x6000#16 ∧
    (let w := 0x4021#16
     w &&& 0xFFFF#16 ≠ 0x0000#16 ∧ w &&& 0xFFFF#16 ≠ 0x1000#16 ∧ w &&& 0xFF00#16 ≠ 0x2000#16 ∧
      w &&& 0xFF00#16 ≠ 0x3000#16 ∧ ¬(w &&& 0xFFC0#16 = 0x4000#16 ∧ w.toNat % 64 ≤ 32) ∧
      w &&& 0xFFFC#16 ≠ 0x5000#16 ∧ w &&& 0xF000#16 ≠ 0x6000#16) := by decide

theorem witness_DecodeEncodeIsTheOperation :
    ((Instr.lcdPuts 32#6).wellFormed = true ∧ (Instr.lcdPuts 32#6).admitted false = true) ∧
    ((Instr.putsChar 0xFF#8 0xFF#8).wellFormed = true ∧ (Instr.putsChar 0xFF#8 0xFF#8).admitted true = true) := by
  decide

theorem witness_EncodeDecodeIsTheWord : decode false 0x4020#16 = .ok (.lcdPuts 32#6) := by decide

/-- Each clause at its boundary words: the first reserved opcode; the lowest nonzero reserved field of each format;
the first and last over-long length; the longest legal string. -/
theorem witness_ReservedWordsTakeTheErrorAction : State.reset.putsRem = 0#6 ∧
    7 ≤ (0x7000#16).toNat / 4096 ∧
    ((0x0001#16).toNat / 4096 ≤ 1 ∧ (0x0001#16).toNat % 4096 ≠ 0) ∧
    ((0x1FFF#16).toNat / 4096 ≤ 1 ∧ (0x1FFF#16).toNat % 4096 ≠ 0) ∧
    ((0x2100#16).toNat / 4096 = 2 ∧ (0x2100#16).toNat / 256 % 16 ≠ 0) ∧
    ((0x3F00#16).toNat / 4096 = 3 ∧ (0x3F00#16).toNat / 256 % 16 ≠ 0) ∧
    ((0x4040#16).toNat / 4096 = 4 ∧ (0x4040#16).toNat / 64 % 64 ≠ 0) ∧
    ((0x5004#16).toNat / 4096 = 5 ∧ (0x5004#16).toNat / 4 % 1024 ≠ 0) ∧
    (∀ w : Fin 2, let n := (if w = 0 then 0x4021#16 else 0x403F#16).toNat
      n / 4096 = 4 ∧ n / 64 % 64 = 0 ∧ 33 ≤ n % 64) ∧
    (let n := (0x4020#16).toNat
     ¬7 ≤ n / 4096 ∧ n / 4096 = 4 ∧ n / 64 % 64 = 0 ∧ ¬33 ≤ n % 64) := by decide

theorem witness_EveryPayloadWordIsACharacter : (inPuts 16#6).putsRem ≠ 0#6 := by decide

theorem witness_PseudoInstructionsExpand :
    (List.replicate 32 0x41#8).length ≤ 32 ∧ 32 < (List.replicate 33 0x41#8).length := by decide

theorem witness_StepRunsTheDecodedOperation : let s := writing 0x5003#16
    s.op = [] ∧ s.rst = false ∧ s.inputs = [.write 0#2 0x5003#16, .read 2#2] ∧
      decode (decide (s.putsRem ≠ 0#6)) 0x5003#16 = .ok (.keyScan 3#2) := by decide

theorem witness_FetchWordIsTheNextToRun :
    decode (decide ((inPuts 0#6).putsRem ≠ 0#6)) 0x5003#16 = .ok (.putsChar 0x03#8 0x50#8) := by decide

/-- A first and a later error. -/
theorem witness_RejectedWordKeepsTheFirstCause (b : Bool) : let s := { writing 0x4021#16 with err := b }
    s.op = [] ∧ s.rst = false ∧ s.inputs = [.write 0#2 0x4021#16, .read 2#2] ∧
      decode (decide (s.putsRem ≠ 0#6)) 0x4021#16 = .error .putsTooLong ∧ s.err = b := by revert b; decide

theorem witness_HostReadOfStatusAndTheRest (off : Offset) : let s : State := { State.reset with inputs := [.read off] }
    s.op = [] ∧ s.inputs = [.read off] ∧ ((0#2 : Offset) ≠ 1#2 ∧ (2#2 : Offset) ≠ 1#2 ∧ (3#2 : Offset) ≠ 1#2) :=
  ⟨rfl, rfl, by decide⟩

theorem witness_HostReadOfKeyres : let s := { inPuts 3#6 with inputs := [.read 1#2] }
    s.op = [] ∧ s.inputs = [.read 1#2] ∧ s.putsRem ≠ 0#6 := by decide

theorem witness_StrayHostWritesAreIgnored : let s := { inPuts 3#6 with inputs := [.write 3#2 0x1000#16] }
    s.op = [] ∧ s.inputs = [.write 3#2 0x1000#16] ∧ (3#2 : Offset) ≠ 0#2 := by decide

theorem witness_BlockWithoutInputIdles : (inPuts 3#6).op = [] ∧ (inPuts 3#6).inputs = [] := by decide

theorem witness_NopChangesNothing : State.reset.putsRem = 0#6 ∧ 0x0001 ≤ (0x0001#16).toNat ∧ (0x0FFF#16).toNat ≤ 0x0FFF := by decide

theorem witness_WaitOnlyHoldsTheBlock : exec (.wait 4095#12) State.reset =
      .next { State.reset with trace := [.wait 4095] } ∧
    exec (.wait 1#12) { State.reset with trace := [.wait 4095] } =
      .next { State.reset with trace := [.wait 4095, .wait 1] } := ⟨rfl, rfl⟩

/-- For LcdInitSendsTheFixedSequence, LcdCmdSendsOneCommandByte, LcdDataSendsOneCharacterByte,
LcdPutsOpensThePayloadWindow and KeyScanDrivesSamplesAndReports: the reserved fields of LCD.INIT, LCD.CMD, LCD.DATA, LCD.PUTS and KEY.SCAN at their lowest and highest values, and
the legal and over-long lengths at their boundary. -/
theorem witness_reserved_fields :
    ((0x1001#16).toNat / 4096 = 1 ∧ (0x1001#16).toNat % 4096 ≠ 0) ∧
    ((0x2F00#16).toNat / 4096 = 2 ∧ (0x2F00#16).toNat / 256 % 16 ≠ 0) ∧
    ((0x3100#16).toNat / 4096 = 3 ∧ (0x3100#16).toNat / 256 % 16 ≠ 0) ∧
    ((0x4FC0#16).toNat / 4096 = 4 ∧ (0x4FC0#16).toNat / 64 % 64 ≠ 0) ∧
    ((0x5FFC#16).toNat / 4096 = 5 ∧ (0x5FFC#16).toNat / 4 % 1024 ≠ 0) ∧
    (32#6).toNat ≤ 32 ∧ 33 ≤ (33#6).toNat ∧ State.reset.putsRem = 0#6 := by decide

/-- PUTS.CHAR where LAZY wraps before it, and where EAGER wraps after it. -/
theorem witness_PutsCharSendsWrapsAndCounts :
    (let s := inPuts 16#6
     s.putsRem ≠ 0#6 ∧ s.params.wrapPolicy = .lazy ∧ s.charCnt = 16#6) ∧
    (let s := { inPuts 15#6 with params := { Config.defaults with wrapPolicy := .eager } }
     s.putsRem ≠ 0#6 ∧ s.params.wrapPolicy = .eager ∧ s.charCnt = 15#6) := by decide

/-- A sample that the environment fixed, and the free one. -/
theorem witness_KeyScanDrivesSamplesAndReports :
    (let s : State := { State.reset with colDraws := [0xF#4] }
     0xF#4 = (match s.colDraws with | d :: _ => d | [] => Config.columnDraw s.drawCount)) ∧
    (let s := State.reset
     Config.columnDraw 0 = (match s.colDraws with | d :: _ => d | [] => Config.columnDraw s.drawCount)) :=
  ⟨rfl, rfl⟩

theorem witness_ScanAssertsExactlyOneRow :
    (∀ r, Instr.nop ≠ .keyScan r) ∧ exec .nop State.reset = .next State.reset := ⟨fun _ h => (by cases h), rfl⟩

theorem validParams_defaults : validParams Config.defaults := by unfold validParams; decide

/-- The defaults, and another choice of layout and row identity with the same keys (K-24). -/
theorem witness_ScanResolvesExactlyOneColumn : validParams Config.defaults ∧
    (let q := { Config.defaults with layout := .rowLow, rowId := #v[1#4, 2#4, 3#4, 4#4] }
     validParams q ∧ q.keymap = Config.defaults.keymap) :=
  ⟨validParams_defaults, by unfold validParams; decide, rfl⟩

theorem witness_ScanCodesTellRowsAndColumnsApart : validParams Config.defaults ∧
    pack Config.defaults 3#2 0xF#4 = pack Config.defaults 3#2 0xF#4 ∧ Config.defaults.layout = .rowHigh ∧
    ({ Config.defaults with layout := .rowLow } : Params).layout = .rowLow := ⟨validParams_defaults, rfl, rfl, rfl⟩

theorem witness_SingleKeysGiveDistinctCharacters : validParams Config.defaults ∧
    keyresChar (scanResult Config.defaults 3#2 (onehot4 3#2)) = keyresChar (scanResult Config.defaults 3#2 (onehot4 3#2)) :=
  ⟨validParams_defaults, rfl⟩

theorem witness_KeyresFieldsReadBack : resolveKey Config.defaults 3#2 0x8#4 = some 0x46#8 ∧
    resolveKey Config.defaults 3#2 0x9#4 = none := by decide

theorem settled_reset : Settled State.reset :=
  ⟨by decide, by decide, by decide, by decide, by decide, .inl rfl, by decide⟩

/-- The longest header, and the middle of an operation. -/
theorem witness_EveryStepKeepsTheStateInvariants :
    (StateInv (writing 0x4020#16) ∧ step (writing 0x4020#16) = .next (next (writing 0x4020#16))) ∧
    (StateInv (midway (.read 2#2)) ∧ step (midway (.read 2#2)) = .next (next (midway (.read 2#2)))) :=
  ⟨⟨⟨by decide, by decide, by decide, by decide, by decide, .inl rfl, by decide⟩, rfl⟩,
    ⟨⟨by decide, by decide, by decide, by decide, by decide, .inl rfl, by decide⟩, rfl⟩⟩

theorem witness_EveryStepKeepsTheLogsTrue : TraceExplains (midway (.rst true)) ∧
    step (midway (.rst true)) = .next (next (midway (.rst true))) := ⟨rfl, rfl⟩

theorem witness_EveryStepKeepsTheBusDiscipline : BusDiscipline (midway (.rst true)) ∧
    step (midway (.rst true)) = .next (next (midway (.rst true))) := ⟨rfl, rfl⟩

theorem witness_EveryStepKeepsKeyresTheLastScan : KeyresIsLastScan (writing 0x5002#16) ∧
    step (writing 0x5002#16) = .next (next (writing 0x5002#16)) := ⟨rfl, rfl⟩

theorem witness_EveryStepKeepsTheErrorFields : ErrorFields (writing 0x7000#16) ∧
    step (writing 0x7000#16) = .next (next (writing 0x7000#16)) := ⟨by unfold ErrorFields; decide, rfl⟩

theorem witness_EveryStepKeepsAHeldBlockQuiet :
    let s := next { writing 0x5000#16 with inputs := [.rst true, .write 0#2 0x5000#16] }
    HeldQuiet s ∧ s.rst = true ∧ step s = .next (next s) := ⟨fun _ => rfl, rfl, rfl⟩

/-- A later error, with INIT_DONE set. -/
theorem witness_OnlyResetClearsTheStickyStatus :
    let s := { writing 0x4021#16 with err := true, cause := 1#4, initDone := true }
    (∀ b rest, s.inputs ≠ .rst b :: rest) ∧ step s = .next (next s) ∧ s.err = true ∧ s.initDone = true :=
  ⟨fun _ _ h => (Input.noConfusion (List.head_eq_of_cons_eq h)), rfl, rfl, rfl⟩

/-- The 31st of 32 characters. -/
theorem witness_PutsCountersAddUpToTheLength :
    let s := { writing 0x0041#16 with putsRem := 2#6, charCnt := 30#6 }
    s.op = [] ∧ s.putsRem ≠ 0#6 ∧ (next s).op = [] ∧ (next s).putsRem ≠ 0#6 := by decide

theorem witness_NoStepChangesParametersOrDrivesRead :
    step (writing 0x5002#16) = .next (next (writing 0x5002#16)) ∧ (writing 0x5002#16).lcdRw = false := ⟨rfl, rfl⟩

/-- The longest string and the empty one. -/
theorem witness_PutsSendsTheWrappedText (n : Fin 2) :
    let ws : List Word := if n = 0 then [] else List.replicate 32 0xFF41#16
    let s : State := { State.reset with
      inputs := .write 0#2 (BitVec.ofNat 16 (0x4000 + ws.length)) :: (ws.map (.write 0#2) ++ [.read 2#2]) }
    s.op = [] ∧ s.rst = false ∧ Settled s ∧ s.putsRem = 0#6 ∧ ws.length ≤ 32 :=
  ⟨rfl, rfl, ⟨settled_reset.1, settled_reset.2, settled_reset.3, settled_reset.4, rfl, .inl rfl, rfl⟩, rfl, by
    revert n; decide⟩

theorem witness_WrappedTextFillsTheTwoLines : (List.replicate 32 0x41#8).length ≤ 32 ∧
    Display.blank.cursor = 0x00#7 ∧ (List.replicate 32 0x41#8)[31]? = some 0x41#8 := by decide

/-- The defaults against other times. -/
theorem witness_TimingChangesNoResult :
    untimed (writing 0x1000#16) =
      untimed { writing 0x1000#16 with params := { Config.defaults with tEpw := 7, tLong := 90, tPwr := 50 } } := rfl

/-- For OperationsLastTheirMinimumTimes, InitDoneAndErrorsGateNothing and both clauses of KeypadAndLcdStayApart. -/
theorem witness_exec_answers_next (s : State) : exec (.lcdCmd 0x01#8) s = .next (runPrims (lcdCmdProgram 0x01#8 s) s) ∧
    exec (.keyScan 0#2) s = .next (runPrims (keyScanProgram 0#2 s) s) := ⟨rfl, rfl⟩

end Sys2Proof.Tests
end

/-! Noninterference of the timing (R12, R241): taking every duration out of a state commutes with
every step. Below, one law for each operation on the state, in the order of the model's definitions. -/

namespace Sys2Proof.Machine

/-! ## What a step is, one equation per case of `advance` -/

/-- RST asserted comes before everything else (R231). -/
theorem step_of_rst_asserted {s : State} {rest : List Input} (hi : s.inputs = .rst true :: rest) :
    step s = .next (resetBlock true (dropInput s)) := by
  unfold step advance
  rw [hi]

/-- An operation in progress ends before another input than RST asserted is taken (R62). -/
theorem step_of_op {s : State} (ho : s.op ≠ []) (hi : ∀ rest, s.inputs ≠ .rst true :: rest) :
    step s = .next (finishOp s) := by
  unfold step advance
  split
  · next rest h => exact absurd h (hi rest)
  · rfl
  · next ho' => exact absurd ho' ho
  · next ho' => exact absurd ho' ho

/-- With no operation in progress the next input is taken. -/
theorem step_of_input {s : State} {x : Input} {rest : List Input} (ho : s.op = [])
    (hi : s.inputs = x :: rest) : step s = takeInput x (dropInput s) := by
  unfold step advance
  rw [hi, ho]
  split
  · next hx => cases hx; rfl
  · next hcons _ => cases hcons
  · next hx _ => cases hx; rfl
  · next hnil _ => cases hnil

/-- With nothing to do the block idles (R28). -/
theorem step_of_idle {s : State} (ho : s.op = []) (hi : s.inputs = []) : step s = .next s := by
  unfold step advance
  rw [hi, ho]

/-! ## What taking the durations out keeps -/

section
variable (s : State)

@[simp] theorem untimed_params : (untimed s).params = untimedParams s.params := rfl
@[simp] theorem untimed_rst : (untimed s).rst = s.rst := rfl
@[simp] theorem untimed_op : (untimed s).op = s.op.map untimedPrim := rfl
@[simp] theorem untimed_inputs : (untimed s).inputs = s.inputs := rfl
@[simp] theorem inPayload_untimed : inPayload (untimed s) = inPayload s := rfl
@[simp] theorem wrapsBefore_untimed : wrapsBefore (untimed s) = wrapsBefore s := rfl
@[simp] theorem wrapsAfter_untimed : wrapsAfter (untimed s) = wrapsAfter s := rfl

end

/-- Without durations every byte settles alike, whatever P_LONG_CMDS was (R133). -/
@[simp] theorem settle_untimedParams (p : Params) (v : Byte) (rs : Bool) :
    settle (untimedParams p) v rs = 0 := by
  simp [settle, untimedParams]

/-! ## The programs -/

/-- A nibble's program without durations is that of the untimed parameters (R131). -/
@[simp] theorem nibProgram_untimedParams (p : Params) (rs : Bool) (n : Nibble) :
    nibProgram (untimedParams p) rs n = (nibProgram p rs n).map untimedPrim := rfl

/-- The same for a byte (R132): which bytes settle long shows in the waits only. -/
@[simp] theorem sendProgram_untimedParams (p : Params) (v : Byte) (rs : Bool) :
    sendProgram (untimedParams p) v rs = (sendProgram p v rs).map untimedPrim := by
  simp [sendProgram, untimedPrim]

/-- The same for a round of LCD.INIT (R136): the byte sent is no duration, the extra wait is. -/
@[simp] theorem initRound_untimedParams (p : Params) (k : Fin 5) :
    initRound (untimedParams p) k = (initRound p k).map untimedPrim := by
  have hbyte : (untimedParams p).initSeq[k] = p.initSeq[k] := rfl
  have hwait : (untimedParams p).tInit[k] = 0 := by simp [untimedParams]
  rw [initRound, hbyte, hwait]
  simp [initRound, untimedPrim]

/-- The same for the wrap of PUTS.CHAR (R139). -/
@[simp] theorem wrapProgram_untimedParams (p : Params) (due : Bool) :
    wrapProgram (untimedParams p) due = (wrapProgram p due).map untimedPrim := by
  cases due
  · rfl
  · exact sendProgram_untimedParams p Config.wrapCmd false

/-- A duration can be taken out only once. -/
@[simp] theorem untimedPrim_comp_untimedPrim : untimedPrim ∘ untimedPrim = untimedPrim := by
  funext m
  cases m <;> rfl

/-- The parameters' durations enter an operation's program only as lengths of its waits. The operand of WAIT
is no parameter: it stands in both programs and is taken out of both. -/
theorem programOf_untimed (i : Instr) (s : State) :
    (programOf i (untimed s)).map untimedPrim = (programOf i s).map untimedPrim := by
  cases i with
  | nop => rfl
  | lcdInit => simp [programOf, lcdInitProgram, untimedPrim]
  | lcdCmd v => simp [programOf, lcdCmdProgram]
  | lcdData v => simp [programOf, lcdDataProgram]
  | lcdPuts len => rfl
  | keyScan r => rfl
  | wait n => rfl
  | putsChar c ignored => simp [programOf, putsCharProgram, untimedPrim]

/-- States that differ only in durations give an operation programs that do. -/
theorem programOf_of_untimed_eq {s s' : State} (h : untimed s = untimed s') (i : Instr) :
    (programOf i s).map untimedPrim = (programOf i s').map untimedPrim := by
  rw [← programOf_untimed i s, h, programOf_untimed]

/-! ## The operations on the state -/

/-- One more observation is one more observation without its duration. -/
theorem untimed_observe (s : State) (e : Event) :
    untimed { s with trace := s.trace ++ [e] } =
      { untimed s with trace := (untimed s).trace ++ [untimedEvent e] } := by
  simp [untimed]

/-- An elementary step does the same without durations. The scan of the columns is where a result is made:
it reads the layout, the row identities and the key map, and no duration (R106). -/
theorem untimed_runPrim (m : Prim) (s : State) :
    untimed (runPrim m s) = runPrim (untimedPrim m) (untimed s) := by
  cases m with
  | setRs b => exact untimed_observe { s with lcdRs := b } _
  | setD n => exact untimed_observe { s with lcdD := n } _
  | setE b => exact untimed_observe { s with lcdE := b, lcdLog := s.lcdLog ++ transferOf b s } _
  | setRow p => exact untimed_observe { s with row := p } _
  | wait t => exact untimed_observe s _
  | scan r =>
    exact untimed_observe { s with
      keyres := scanResult s.params r (nextSample s)
      scanLog := s.scanLog ++ [⟨r, nextSample s⟩]
      colDraws := s.colDraws.tail
      drawCount := if s.colDraws.isEmpty then s.drawCount + 1 else s.drawCount } _
  | setInitDone => rfl
  | setPutsRem n => rfl
  | setCharCnt n => rfl
  | incCharCnt => rfl
  | decPutsRem => rfl
  | endPuts => rfl

theorem untimed_runPrims (ms : List Prim) (s : State) :
    untimed (runPrims ms s) = runPrims (ms.map untimedPrim) (untimed s) := by
  induction ms generalizing s with
  | nil => rfl
  | cons m ms ih => rw [runPrims_cons, ih, untimed_runPrim, List.map_cons, runPrims_cons]

theorem untimed_beginOp (ms : List Prim) (k : Nat) (s : State) :
    untimed (beginOp ms k s) = beginOp (ms.map untimedPrim) k (untimed s) := by
  have hwithOp (t : State) (o : List Prim) :
      untimed { t with op := o } = { untimed t with op := o.map untimedPrim } := rfl
  rw [beginOp, hwithOp, untimed_runPrims, List.map_take, List.map_drop, beginOp]

theorem untimed_finishOp (s : State) : untimed (finishOp s) = finishOp (untimed s) := by
  have hwithOp (t : State) : untimed { t with op := [] } = { untimed t with op := [] } := rfl
  rw [finishOp, hwithOp, untimed_runPrims, finishOp, untimed_op]

theorem untimed_raiseError (c : BitVec 4) (s : State) :
    untimed (raiseError c s) = raiseError c (untimed s) := rfl

theorem untimed_dropInput (s : State) : untimed (dropInput s) = dropInput (untimed s) := rfl

/-- The host reads the same: no duration shows in KEYRES or STATUS (R182, R183). -/
theorem untimed_hostRead (off : Offset) (s : State) :
    untimed (hostRead off s) = hostRead off (untimed s) :=
  untimed_observe s (.hostRead off (readWindow off s))

theorem untimed_resetBlock (b : Bool) (s : State) :
    untimed (resetBlock b s) = resetBlock b (untimed s) :=
  untimed_observe (quietBlock { s with rst := b }) (.rst b)

theorem untimed_releaseRst (s : State) : untimed (releaseRst s) = releaseRst (untimed s) := by
  cases hr : s.rst <;> simp [releaseRst, hr, untimed_resetBlock]

/-! ## Host accesses and the step -/

/-- Both outcomes are next states, and these differ only in durations. -/
def SameButTime (o o' : Host.Outcome State Fault Refusal) : Prop :=
  ∃ t t' : State, o = .next t ∧ o' = .next t' ∧ untimed t = untimed t'

/-- An update that commutes with taking the durations out makes next states that differ only in durations
from states that do. -/
theorem sameButTime_of_commutes {f : State → State} (hf : ∀ s, untimed (f s) = f (untimed s))
    {s s' : State} (h : untimed s = untimed s') : SameButTime (.next (f s)) (.next (f s')) :=
  ⟨f s, f s', rfl, rfl, by rw [hf, hf, h]⟩

/-- A word written to CMD is decoded alike, since PUTS_REM is no duration (R71), and its operation does the
same. -/
theorem sameButTime_acceptWord {s s' : State} (h : untimed s = untimed s') (w : Word) :
    SameButTime (acceptWord w s) (acceptWord w s') := by
  have hmode : inPayload s = inPayload s' := by
    rw [← inPayload_untimed s, h, inPayload_untimed]
  unfold acceptWord
  rw [← hmode]
  cases decode (inPayload s) w with
  | ok i =>
    exact ⟨_, _, exec_eq_runPrims i s, exec_eq_runPrims i s', by
      rw [untimed_runPrims, untimed_runPrims, programOf_of_untimed_eq h, h]⟩
  | error e => exact sameButTime_of_commutes (untimed_raiseError (causeCode e)) h

/-- The same for a paused write: the pause counts elementary steps and not time (assumption 4). -/
theorem sameButTime_acceptPaused {s s' : State} (h : untimed s = untimed s') (w : Word) (k : Nat) :
    SameButTime (acceptPaused w k s) (acceptPaused w k s') := by
  have hmode : inPayload s = inPayload s' := by
    rw [← inPayload_untimed s, h, inPayload_untimed]
  unfold acceptPaused
  rw [← hmode]
  cases decode (inPayload s) w with
  | ok i =>
    exact ⟨_, _, rfl, rfl, by rw [untimed_beginOp, untimed_beginOp, programOf_of_untimed_eq h, h]⟩
  | error e => exact sameButTime_of_commutes (untimed_raiseError (causeCode e)) h

/-- A write does the same at every offset, taken or ignored (R53, R184). -/
theorem sameButTime_hostWrite {s s' : State} (h : untimed s = untimed s') (off : Offset) (v : Word) :
    SameButTime (hostWrite off v s) (hostWrite off v s') := by
  have hrst : s'.rst = s.rst := by rw [← untimed_rst s, h, untimed_rst]
  unfold hostWrite
  rw [hrst]
  split
  · exact ⟨s, s', rfl, rfl, h⟩
  · split
    · exact sameButTime_acceptWord h v
    · exact ⟨s, s', rfl, rfl, h⟩

/-- Whatever the next input is, taking it does the same. -/
theorem sameButTime_takeInput {s s' : State} (h : untimed s = untimed s') (x : Input) :
    SameButTime (takeInput x s) (takeInput x s') := by
  cases x with
  | read off => exact sameButTime_of_commutes (untimed_hostRead off) h
  | write off v => exact sameButTime_hostWrite h off v
  | writePaused w k =>
    have hrst : s'.rst = s.rst := by rw [← untimed_rst s, h, untimed_rst]
    show SameButTime (if s.rst then .next s else acceptPaused w k s)
      (if s'.rst then .next s' else acceptPaused w k s')
    rw [hrst]
    split
    · exact ⟨s, s', rfl, rfl, h⟩
    · exact sameButTime_acceptPaused h w k
  | rst asserted =>
    cases asserted with
    | true => exact sameButTime_of_commutes (untimed_resetBlock true) h
    | false => exact sameButTime_of_commutes untimed_releaseRst h

/-- A step takes the same case of `advance` in both states, since neither the inputs nor whether an operation
is in progress is a duration. -/
theorem sameButTime_step {s s' : State} (h : untimed s = untimed s') :
    SameButTime (step s) (step s') := by
  have hinputs : s'.inputs = s.inputs := by rw [← untimed_inputs s, h, untimed_inputs]
  have hop : s.op = [] ↔ s'.op = [] := by
    have hmap : s.op.map untimedPrim = s'.op.map untimedPrim := by
      rw [← untimed_op, h, untimed_op]
    rw [← List.map_eq_nil_iff (f := untimedPrim), hmap, List.map_eq_nil_iff]
  have hdrop : untimed (dropInput s) = untimed (dropInput s') := by
    rw [untimed_dropInput, untimed_dropInput, h]
  by_cases hi : ∃ rest, s.inputs = .rst true :: rest
  · obtain ⟨rest, hi⟩ := hi
    rw [step_of_rst_asserted hi, step_of_rst_asserted (hinputs.trans hi)]
    exact sameButTime_of_commutes (untimed_resetBlock true) hdrop
  by_cases ho : s.op = []
  · have ho' := hop.mp ho
    cases hx : s.inputs with
    | nil =>
      rw [step_of_idle ho hx, step_of_idle ho' (hinputs.trans hx)]
      exact ⟨s, s', rfl, rfl, h⟩
    | cons x rest =>
      rw [step_of_input ho hx, step_of_input ho' (hinputs.trans hx)]
      exact sameButTime_takeInput hdrop x
  · have hi' : ∀ rest, s.inputs ≠ .rst true :: rest := fun rest hr => hi ⟨rest, hr⟩
    rw [step_of_op ho hi', step_of_op (mt hop.mpr ho) (by rwa [hinputs])]
    exact sameButTime_of_commutes untimed_finishOp h

/-- Settles O47: whatever a step does, it does the same in two states that differ only in durations. -/
theorem timingChangesNoResult : Obligations.TimingChangesNoResult :=
  fun _ _ h => sameButTime_step h

/-- Settles O44: no elementary step, host access or error action touches the parameters or LCD_RW, and reset
keeps the parameters and drives LCD_RW low. -/
theorem noStepChangesParametersOrDrivesRead : Obligations.NoStepChangesParametersOrDrivesRead := by
  intro s t hstep
  refine step_keeps (P := fun u => u.params = s.params ∧ (s.lcdRw = false → u.lcdRw = false))
    (hprim := fun m u hu => ?_) (hop := fun _ _ hu => hu) (hread := fun _ _ hu => hu)
    (hdrop := fun _ hu => hu) (herr := fun _ _ hu => hu)
    (hreset := fun _ _ ⟨hparams, _⟩ => ⟨hparams, fun _ => rfl⟩) ⟨rfl, id⟩ hstep
  obtain ⟨hparams, _, _, _, hrw, _⟩ := runPrim_untouched m u
  rwa [hparams, hrw]

end Sys2Proof.Machine

/-! The state of the block (spec/10_state.md): what each operation's program makes of it, and what every
step keeps of it. -/

namespace Sys2Proof.Machine

/-! ## What the programs make of a state, one equation per program -/

/-- LCD.PUTS (R138): the header of an empty string does nothing, any other opens the payload window. -/
theorem runPrims_lcdPutsProgram (len : BitVec 6) (s : State) :
    runPrims (lcdPutsProgram len s) s =
      if len = 0#6 then s else { s with putsRem := len, charCnt := 0#6 } := by
  unfold lcdPutsProgram
  split <;> rfl

/-- KEY.SCAN (R106): the row is driven, then the columns are sampled. -/
theorem runPrims_keyScanProgram (r : RowIdx) (s : State) :
    runPrims (keyScanProgram r s) s =
      scanColumns r (waitFor s.params.tRow (setRow (onehot4 r) s)) := rfl

/-- LCD.INIT (R136): five command bytes, each with its settle and its extra wait, then INIT_DONE. -/
theorem runPrims_lcdInitProgram (s : State) :
    runPrims (lcdInitProgram s) s =
      { s with
        lcdRs := false, lcdD := lowNibble s.params.initSeq[4], lcdE := false, initDone := true
        lcdLog := s.lcdLog ++ (List.finRange 5).flatMap fun k => byteLog false s.params.initSeq[k]
        trace := s.trace ++ [.wait s.params.tPwr] ++ (List.finRange 5).flatMap fun k =>
          byteEvents s.params false s.params.initSeq[k] (settle s.params s.params.initSeq[k] false) ++
            [.wait s.params.tInit[k]] } := by
  simp [lcdInitProgram, runPrims_append, runPrims_initRound, runPrim, waitFor, setInitDone,
    List.finRange_succ]

/-- PUTS.CHAR (R139): the character with the wrap its policy asks for, then the two counters. -/
theorem runPrims_putsCharProgram (c : Byte) (s : State) :
    runPrims (putsCharProgram c s) s =
      let rem := if s.putsRem = 0#6 then 0#6 else s.putsRem - 1#6
      let wrap := byteEvents s.params false Config.wrapCmd (settle s.params Config.wrapCmd false)
      { s with
        lcdRs := !wrapsAfter s, lcdE := false
        lcdD := lowNibble (if wrapsAfter s then Config.wrapCmd else c)
        lcdLog := s.lcdLog ++ (if wrapsBefore s then byteLog false Config.wrapCmd else []) ++
          byteLog true c ++ (if wrapsAfter s then byteLog false Config.wrapCmd else [])
        putsRem := rem
        charCnt := if rem = 0#6 then 0#6 else s.charCnt + 1#6
        trace := s.trace ++ (if wrapsBefore s then wrap else []) ++
          byteEvents s.params true c (settle s.params c true) ++ (if wrapsAfter s then wrap else []) } := by
  unfold putsCharProgram
  generalize wrapsBefore s = before
  generalize wrapsAfter s = after
  cases before <;> cases after <;>
    simp [runPrims_append, runPrims_wrapProgram, runPrims_sendProgram, runPrim, setCharCnt, decPutsRem,
      endPuts]

/-! ## Which steps keep what -/

/-- A property that every elementary step, every host access and the error action keep, and that does not
speak of the operation in progress, every step that takes no RST level keeps. -/
theorem step_keeps_of_no_rst {P : State → Prop} (hprim : ∀ m s, P s → P (runPrim m s))
    (hop : ∀ o s, P s → P { s with op := o }) (hread : ∀ off s, P s → P (hostRead off s))
    (hdrop : ∀ s, P s → P (dropInput s)) (herr : ∀ e s, P s → P (raiseError (causeCode e) s))
    {s t : State} (hrst : ∀ (b : Bool) (rest : List Input), s.inputs ≠ .rst b :: rest)
    (hs : P s) (h : step s = .next t) : P t := by
  cases step_cases h with
  | reset rest hi => exact absurd hi (hrst true rest)
  | release rest ho hi => exact absurd hi (hrst false rest)
  | finish ho => exact hop _ _ (runPrims_keeps hprim _ _ hs)
  | idle ho hi => exact hs
  | read off rest ho hi => exact hread _ _ (hdrop _ hs)
  | ignored x rest ho hi hx => exact hdrop _ hs
  | run w rest i ho hr hi hd => exact runPrims_keeps hprim _ _ (hdrop _ hs)
  | pause w k rest i ho hr hi hd => exact hop _ _ (runPrims_keeps hprim _ _ (hdrop _ hs))
  | reject x w rest e ho hr hi hx hd => exact herr _ _ (hdrop _ hs)

/-- No elementary step clears INIT_DONE (R204). -/
theorem runPrim_initDone (m : Prim) {s : State} (h : s.initDone = true) :
    (runPrim m s).initDone = true := by
  cases m with
  | setInitDone => rfl
  | _ => exact h

/-! ## What the decoder lets through -/

/-- While a PUTS is active every word is a character (R75). -/
theorem decode_inPayload {s : State} (h : s.putsRem ≠ 0#6) (w : Word) :
    decode (inPayload s) w = .ok (decodePayload w) := by
  simp [decode, inPayload, h]

/-- A field that must be zero lets its operation through and no other. -/
theorem eq_of_unlessReserved_eq_ok {n : Nat} {z : BitVec n} {i j : Instr}
    (h : unlessReserved z i = .ok j) : i = j := by
  unfold unlessReserved at h
  split at h
  · exact Except.ok.inj h
  · cases h

/-- An accepted word names a well-formed operation: no length above 32 is let through (R73, R74). -/
theorem wellFormed_of_decode {payload : Bool} {w : Word} {i : Instr} (h : decode payload w = .ok i) :
    i.wellFormed = true := by
  cases payload with
  | true => cases h; rfl
  | false =>
    change decodeIdle w = .ok i at h
    unfold decodeIdle at h
    split at h
    case h_5 =>
      split at h
      · cases h
      split at h
      · cases h
      · next hlen => cases h; exact decide_eq_true (Nat.le_of_not_lt hlen)
    case h_7 => cases h; rfl
    case h_8 => cases h
    all_goals cases eq_of_unlessReserved_eq_ok h; rfl

/-! ## R35: PUTS_REM, CHARCNT, LCD_E, ROW and LCD_RW -/

theorem settled_at_reset : Settled State.reset :=
  ⟨by decide, by decide, by decide, fun _ => rfl, rfl, .inl rfl, rfl⟩

/-- R35 speaks of the two counters, ROW, LCD_RW and LCD_E only. -/
theorem Settled.of_same {s t : State} (h : Settled s) (hrem : t.putsRem = s.putsRem)
    (hcnt : t.charCnt = s.charCnt) (he : t.lcdE = false) (hrow : t.row = s.row)
    (hrw : t.lcdRw = s.lcdRw) : Settled t where
  remLe := hrem ▸ h.remLe
  cntLe := hcnt ▸ h.cntLe
  sumLe := by rw [hrem, hcnt]; exact h.sumLe
  cntZero := by rw [hrem, hcnt]; exact h.cntZero
  strobeLow := he
  rowShape := hrow ▸ h.rowShape
  writeOnly := hrw ▸ h.writeOnly

/-- The header of at most 32 characters opens a window that meets R35. -/
theorem Settled.openPuts {s : State} (h : Settled s) {len : BitVec 6} (hlen : len.toNat ≤ 32) :
    Settled { s with putsRem := len, charCnt := 0#6 } :=
  ⟨hlen, Nat.zero_le _, by simpa using hlen, fun _ => rfl, h.strobeLow, h.rowShape, h.writeOnly⟩

/-- A character moves one from PUTS_REM to CHARCNT, and the last one clears both (R139). -/
theorem Settled.putsChar {s : State} (h : Settled s) (c : Byte) :
    Settled (runPrims (putsCharProgram c s) s) := by
  have hrem := h.remLe
  have hsum := h.sumLe
  rw [runPrims_putsCharProgram]
  by_cases hz : s.putsRem = 0#6
  · exact h.of_same (by simp [hz]) (by simp [hz, h.cntZero hz]) rfl rfl rfl
  by_cases hlast : s.putsRem - 1#6 = 0#6
  · refine ⟨?_, ?_, ?_, ?_, rfl, h.rowShape, h.writeOnly⟩ <;> simp [hz, hlast]
  · simp only [if_neg hz, if_neg hlast]
    exact ⟨by bv_omega, by bv_omega, by bv_omega, fun h0 => absurd h0 hlast, rfl, h.rowShape, h.writeOnly⟩

/-- Every well-formed operation, run to its end, keeps R35. -/
theorem Settled.runPrims_programOf {s : State} (h : Settled s) {i : Instr} (hi : i.wellFormed = true) :
    Settled (runPrims (programOf i s) s) := by
  cases i with
  | nop => exact h
  | wait n => exact h.of_same rfl rfl h.strobeLow rfl rfl
  | lcdCmd v =>
    rw [programOf, lcdCmdProgram, runPrims_sendProgram]
    exact h.of_same rfl rfl rfl rfl rfl
  | lcdData v =>
    rw [programOf, lcdDataProgram, runPrims_sendProgram]
    exact h.of_same rfl rfl rfl rfl rfl
  | lcdInit =>
    rw [programOf, runPrims_lcdInitProgram]
    exact h.of_same rfl rfl rfl rfl rfl
  | lcdPuts len =>
    rw [programOf, runPrims_lcdPutsProgram]
    split
    · exact h
    · exact h.openPuts (of_decide_eq_true hi)
  | keyScan r =>
    rw [programOf, runPrims_keyScanProgram]
    exact ⟨h.remLe, h.cntLe, h.sumLe, h.cntZero, h.strobeLow, .inr ⟨r, rfl⟩, h.writeOnly⟩
  | putsChar c ignored => exact h.putsChar c

/-- With no operation in progress R35 is about the state itself. -/
theorem stateInv_iff_settled {s : State} (ho : s.op = []) : StateInv s ↔ Settled s := by
  rw [StateInv, finishOp_of_op_nil ho]

theorem Settled.stateInv {s : State} (h : Settled s) (ho : s.op = []) : StateInv s :=
  (stateInv_iff_settled ho).mpr h

/-- Between operations R35 stays where the fields it speaks of stay: after a host read, an ignored access and the
error action. -/
theorem StateInv.of_same {s t : State} (h : StateInv s) (ho : s.op = []) (hop : t.op = s.op)
    (hrem : t.putsRem = s.putsRem) (hcnt : t.charCnt = s.charCnt) (he : t.lcdE = s.lcdE)
    (hrow : t.row = s.row) (hrw : t.lcdRw = s.lcdRw) : StateInv t :=
  have hs := (stateInv_iff_settled ho).mp h
  (hs.of_same hrem hcnt (he.trans hs.strobeLow) hrow hrw).stateInv (hop.trans ho)

theorem settled_resetBlock (b : Bool) (s : State) : Settled (resetBlock b s) :=
  settled_at_reset.of_same rfl rfl rfl rfl rfl

theorem Settled.dropInput {s : State} (h : Settled s) : Settled (dropInput s) :=
  h.of_same rfl rfl h.strobeLow rfl rfl

/-- Settles O36: a step either ends at a state between operations that is settled, or pauses an operation that
will end at one. -/
theorem everyStepKeepsTheStateInvariants : Obligations.EveryStepKeepsTheStateInvariants := by
  intro s t hs hstep
  have hrun (i : Instr) (ho : s.op = []) (hi : i.wellFormed = true) :
      Settled (runPrims (programOf i (dropInput s)) (dropInput s)) :=
    ((stateInv_iff_settled ho).mp hs).dropInput.runPrims_programOf hi
  cases step_cases hstep with
  | reset => exact (settled_resetBlock true _).stateInv rfl
  | finish => exact Settled.stateInv hs rfl
  | idle => exact hs
  | read _ _ ho | ignored _ _ ho | reject _ _ _ _ ho => exact hs.of_same ho rfl rfl rfl rfl rfl rfl
  | release _ ho =>
    unfold releaseRst
    split
    · exact (settled_resetBlock false _).stateInv rfl
    · exact hs.of_same ho rfl rfl rfl rfl rfl rfl
  | run w rest i ho hr hi hd =>
    obtain ⟨_, _, _, _, _, hop, _⟩ := runPrims_untouched (programOf i (dropInput s)) (dropInput s)
    exact (hrun i ho (wellFormed_of_decode hd)).stateInv (hop.trans ho)
  | pause w k rest i ho hr hi hd =>
    have h := hrun i ho (wellFormed_of_decode hd)
    rw [StateInv, finishOp_beginOp]
    exact h.of_same rfl rfl h.strobeLow rfl rfl

/-! ## R30, R31: the pins and the logs -/

/-- One more observation keeps the view true where the pins and logs take it in as an observer does. -/
theorem TraceExplains.observe {s t : State} (h : TraceExplains s) (e : Event)
    (htrace : t.trace = s.trace ++ [e]) (hview : viewOf t = (viewOf s).see e) : TraceExplains t := by
  rw [TraceExplains, htrace, List.foldl_concat, h, hview]

/-- The LCD_LOG entry the block makes is the one the observer makes: one at each fall of LCD_E (R30). -/
theorem viewOf_setE (b : Bool) (s : State) : viewOf (setE b s) = (viewOf s).see (.e b) := by
  have hlog : s.lcdLog ++ transferOf b s =
      if s.lcdE && !b then s.lcdLog ++ [⟨s.lcdRs, s.lcdD⟩] else s.lcdLog := by
    unfold transferOf
    split
    · rfl
    · exact List.append_nil _
  exact congrArg (PinView.mk s.lcdRs s.lcdD b s.row · s.scanLog) hlog

/-- An elementary step either shows one observation, or touches neither pin nor log. -/
theorem TraceExplains.runPrim {s : State} (h : TraceExplains s) (m : Prim) :
    TraceExplains (runPrim m s) := by
  cases m with
  | setRs b => exact h.observe (.rs b) rfl rfl
  | setD n => exact h.observe (.data n) rfl rfl
  | setE b => exact h.observe (.e b) rfl (viewOf_setE b s)
  | setRow p => exact h.observe (.row p) rfl rfl
  | wait t => exact h.observe (.wait t) rfl rfl
  | scan r => exact h.observe (.sample r (nextSample s)) rfl rfl
  | setInitDone | setPutsRem | setCharCnt | incCharCnt | decPutsRem | endPuts => exact h

/-- Settles O37: every elementary step, host read and RST shows what it does to the pins and the logs. -/
theorem everyStepKeepsTheLogsTrue : Obligations.EveryStepKeepsTheLogsTrue := by
  intro s t hs hstep
  exact step_keeps (P := TraceExplains) (hprim := fun m _ h => h.runPrim m) (hop := fun _ _ h => h)
    (hread := fun off u h => h.observe (.hostRead off (readWindow off u)) rfl rfl)
    (hdrop := fun _ h => h) (herr := fun _ _ h => h)
    (hreset := fun b _ h => h.observe (.rst b) rfl rfl) hs hstep

/-! ## R23: KEYRES -/

/-- A scan leaves its own result in KEYRES and its own entry last in SCAN_LOG. -/
theorem keyresIsLastScan_scanColumns (r : RowIdx) (s : State) : KeyresIsLastScan (scanColumns r s) := by
  simp [KeyresIsLastScan, scanColumns]

/-- Settles O39: no elementary step but the sample of a scan touches KEYRES or SCAN_LOG, and RST clears both. -/
theorem everyStepKeepsKeyresTheLastScan : Obligations.EveryStepKeepsKeyresTheLastScan := by
  intro s t hs hstep
  refine step_keeps (P := KeyresIsLastScan) (hprim := fun m u h => ?_) (hop := fun _ _ h => h)
    (hread := fun _ _ h => h) (hdrop := fun _ h => h) (herr := fun _ _ h => h)
    (hreset := fun _ _ _ => rfl) hs hstep
  cases m with
  | scan r => exact keyresIsLastScan_scanColumns r u
  | _ => exact h

/-- `{x, y}` as a number (R10). -/
theorem append_toNat {m n : Nat} (x : BitVec m) (y : BitVec n) :
    (x ++ y).toNat = x.toNat * 2 ^ n + y.toNat := by
  rw [BitVec.toNat_append, ← Nat.shiftLeft_add_eq_or_of_lt y.isLt, Nat.shiftLeft_eq]

/-- `{valid, 0b0, r, c, ch}` as a number. -/
theorem keyresWord_toNat (valid : Bool) (r : RowIdx) (c : Nibble) (ch : Byte) :
    (keyresWord valid r c ch).toNat =
      valid.toNat * 32768 + r.toNat * 4096 + c.toNat * 256 + ch.toNat := by
  simp only [keyresWord, append_toNat, BitVec.toNat_ofBool, BitVec.toNat_zero]
  omega

theorem scanResult_of_some {p : Params} {r : RowIdx} {c : Nibble} {x : Byte}
    (h : resolveKey p r c = some x) : scanResult p r c = keyresWord true r c x := by
  simp only [scanResult, h]

theorem scanResult_of_none {p : Params} {r : RowIdx} {c : Nibble}
    (h : resolveKey p r c = none) : scanResult p r c = keyresWord false r c 0x00#8 := by
  simp only [scanResult, h]

/-- Settles O34: the word a scan writes is a sum of its fields, each below the next one's weight. -/
theorem keyresFieldsReadBack : Obligations.KeyresFieldsReadBack := by
  intro p r c
  have hr := r.isLt
  have hc := c.isLt
  cases h : resolveKey p r c with
  | some x =>
    have hx := x.isLt
    have hw := keyresWord_toNat true r c x
    rw [← scanResult_of_some h, Bool.toNat_true] at hw
    refine ⟨by omega, by omega, by omega, ⟨fun _ => ⟨x, rfl⟩, fun _ => by omega⟩, ?_, nofun⟩
    rintro _ ⟨⟩
    omega
  | none =>
    have hw := keyresWord_toNat false r c 0x00#8
    rw [← scanResult_of_none h, Bool.toNat_false, BitVec.toNat_zero] at hw
    exact ⟨by omega, by omega, by omega, ⟨fun _ => by omega, nofun⟩, nofun, fun _ => ⟨by omega, by omega⟩⟩

/-! ## R24: ERR, CAUSE and INIT_DONE -/

theorem errorFields_at_reset : ErrorFields State.reset := ⟨by decide, by decide⟩

theorem causeCode_ne_zero (e : DecodeError) : causeCode e ≠ 0#4 := by cases e <;> decide

theorem causeCode_le_three (e : DecodeError) : (causeCode e).toNat ≤ 3 := by cases e <;> decide

/-- The error fields agree after the error action: it keeps a first cause, or records one of 1 to 3 (R201). -/
theorem ErrorFields.raiseError {s : State} (h : ErrorFields s) (e : DecodeError) :
    ErrorFields (raiseError (causeCode e) s) := by
  cases herr : s.err with
  | true => rwa [raiseError_of_err herr]
  | false => simp [ErrorFields, herr, causeCode_ne_zero, causeCode_le_three]

/-- Settles O40: only the error action and RST touch ERR and CAUSE. -/
theorem everyStepKeepsTheErrorFields : Obligations.EveryStepKeepsTheErrorFields := by
  intro s t hs hstep
  refine step_keeps (P := ErrorFields) (hprim := fun m u h => ?_) (hop := fun _ _ h => h)
    (hread := fun _ _ h => h) (hdrop := fun _ h => h) (herr := fun e _ h => h.raiseError e)
    (hreset := fun _ _ _ => errorFields_at_reset) hs hstep
  obtain ⟨_, _, herr, hcause, _⟩ := runPrim_untouched m u
  rwa [ErrorFields, herr, hcause]

/-- What R204 has stay as it was in `s`: an error with its first cause, and INIT_DONE. -/
def StatusSticks (s t : State) : Prop :=
  (s.err = true → t.err = true ∧ t.cause = s.cause) ∧ (s.initDone = true → t.initDone = true)

/-- Settles O42: no elementary step writes ERR or CAUSE or clears INIT_DONE, and a second error keeps the first
cause. -/
theorem onlyResetClearsTheStickyStatus : Obligations.OnlyResetClearsTheStickyStatus := by
  intro s t hrst hstep
  refine step_keeps_of_no_rst (P := StatusSticks s) (hprim := fun m u ⟨herr, hdone⟩ => ?_)
    (hop := fun _ _ h => h) (hread := fun _ _ h => h) (hdrop := fun _ h => h)
    (herr := fun e u ⟨herr, hdone⟩ => ⟨fun hs => ?_, hdone⟩) hrst ⟨fun h => ⟨h, rfl⟩, id⟩ hstep
  · obtain ⟨_, _, herr', hcause', _⟩ := runPrim_untouched m u
    exact ⟨by rwa [herr', hcause'], fun hs => runPrim_initDone m (hdone hs)⟩
  · rw [raiseError_of_err (herr hs).1]
    exact herr hs

/-! ## R35(c): the length of a PUTS -/

/-- A character that is not the last one keeps CHARCNT + PUTS_REM. -/
theorem putsChar_keeps_sum {s : State} (c : Byte) (hs : s.putsRem ≠ 0#6)
    (ht : (runPrims (putsCharProgram c s) s).putsRem ≠ 0#6) :
    (runPrims (putsCharProgram c s) s).charCnt + (runPrims (putsCharProgram c s) s).putsRem =
      s.charCnt + s.putsRem := by
  rw [runPrims_putsCharProgram] at ht ⊢
  simp only [if_neg hs] at ht ⊢
  rw [if_neg ht]
  bv_omega

/-- Settles O43: between operations of an active PUTS a step runs a character or leaves both counters. -/
theorem putsCountersAddUpToTheLength : Obligations.PutsCountersAddUpToTheLength := by
  intro s t ho hrem hstep hto htrem
  cases step_cases hstep with
  | reset rest hi => exact absurd rfl htrem
  | finish hop => exact absurd ho hop
  | idle | read | ignored | reject => rfl
  | release rest _ hi =>
    revert htrem
    unfold releaseRst
    split
    · exact fun h => absurd rfl h
    · exact fun _ => rfl
  | run w rest i _ hr hi hd =>
    cases hd.symm.trans (decode_inPayload hrem w)
    exact putsChar_keeps_sum (s := dropInput s) _ hrem htrem
  | pause w k rest i _ hr hi hd =>
    cases hd.symm.trans (decode_inPayload hrem w)
    rw [← finishOp_of_op_nil hto, finishOp_beginOp] at htrem ⊢
    exact putsChar_keeps_sum (s := dropInput s) _ hrem htrem

/-! ## R33: reset -/

/-- Settles O1: each value of R33's table stands in `State.reset`. -/
theorem resetStateIsAllZeroAndEmpty : Obligations.ResetStateIsAllZeroAndEmpty :=
  ⟨rfl, rfl, ⟨rfl, rfl, rfl⟩, rfl, rfl, rfl, rfl, rfl, rfl, rfl, rfl, rfl, rfl⟩

/-- Settles O19: the last case of `advance`. -/
theorem blockWithoutInputIdles : Obligations.BlockWithoutInputIdles :=
  fun _ ho hi => step_of_idle ho hi

/-- The defaults of R8 are one of the choices R9 allows. -/
theorem defaults_validParams : validParams Config.defaults := by
  unfold validParams
  decide

/-- Settles O35: nothing is in progress, logged or observed at reset, and RST is released there. -/
theorem resetMeetsEveryInvariant : Obligations.ResetMeetsEveryInvariant :=
  ⟨settled_at_reset.stateInv rfl, errorFields_at_reset, rfl, rfl, rfl, nofun,
    defaults_validParams⟩

/-! ## The keypad and the LCD -/

/-- The keypad's side of the block is the same in both: KEYRES, SCAN_LOG and the column draws. -/
def SameKeypad (s t : State) : Prop :=
  t.keyres = s.keyres ∧ t.scanLog = s.scanLog ∧ t.colDraws = s.colDraws ∧ t.drawCount = s.drawCount

/-- KEY.SCAN is the one operation whose program samples the columns. -/
theorem sameKeypad_programOf {i : Instr} (hi : ∀ r, i ≠ .keyScan r) (s : State) :
    SameKeypad s (runPrims (programOf i s) s) := by
  cases i with
  | nop | wait => exact ⟨rfl, rfl, rfl, rfl⟩
  | keyScan r => exact absurd rfl (hi r)
  | lcdCmd v =>
    rw [programOf, lcdCmdProgram, runPrims_sendProgram]
    exact ⟨rfl, rfl, rfl, rfl⟩
  | lcdData v =>
    rw [programOf, lcdDataProgram, runPrims_sendProgram]
    exact ⟨rfl, rfl, rfl, rfl⟩
  | lcdInit =>
    rw [programOf, runPrims_lcdInitProgram]
    exact ⟨rfl, rfl, rfl, rfl⟩
  | lcdPuts len =>
    rw [programOf, runPrims_lcdPutsProgram]
    split <;> exact ⟨rfl, rfl, rfl, rfl⟩
  | putsChar c ignored =>
    rw [programOf, runPrims_putsCharProgram]
    exact ⟨rfl, rfl, rfl, rfl⟩

/-- Settles O50: the equation of each program shows which half of the block it writes. -/
theorem keypadAndLcdStayApart : Obligations.KeypadAndLcdStayApart := by
  intro i s t h
  cases (exec_eq_runPrims i s).symm.trans h
  refine ⟨fun hi => sameKeypad_programOf hi s, ?_⟩
  rintro ⟨r, rfl⟩
  rw [programOf, runPrims_keyScanProgram]
  exact ⟨rfl, rfl, rfl, rfl, rfl, rfl, rfl, rfl, rfl, rfl⟩

end Sys2Proof.Machine

/-! The host window and its operations (spec/20_memory.md): a write that is paused ends as the whole
write does (R57, R62), and a byte goes out high nibble first (R54). -/

namespace Sys2Proof.Machine

/-! ## A paused write and the whole one -/

/-- A decoded word runs its operation whole (R71). -/
theorem acceptWord_of_ok {s : State} {w : Word} {i : Instr} (hd : decode (inPayload s) w = .ok i) :
    acceptWord w s = .next (runPrims (programOf i s) s) := by
  rw [acceptWord, hd]
  exact exec_eq_runPrims i s

/-- A rejected word takes the error action (R201). -/
theorem acceptWord_of_error {s : State} {w : Word} {e : DecodeError}
    (hd : decode (inPayload s) w = .error e) :
    acceptWord w s = .next (raiseError (causeCode e) s) := by
  rw [acceptWord, hd]

/-- With nothing in progress, pausing an operation and finishing it is running it. -/
theorem finishOp_beginOp_of_op_nil {s : State} (ho : s.op = []) (ms : List Prim) (k : Nat) :
    finishOp (beginOp ms k s) = runPrims ms s := by
  obtain ⟨-, -, -, -, -, hop, -⟩ := runPrims_untouched ms s
  rw [finishOp_beginOp, ← hop.trans ho]

/-- Accepting a word whole ends where its paused write ends once finished. -/
theorem acceptWord_eq_finishOp {s t : State} {w : Word} {k : Nat} (ho : s.op = [])
    (h : acceptPaused w k s = .next t) : acceptWord w s = .next (finishOp t) := by
  rcases acceptPaused_cases w k s with ⟨i, hd, hp⟩ | ⟨e, hd, hp⟩
  · cases hp.symm.trans h
    rw [acceptWord_of_ok hd, finishOp_beginOp_of_op_nil ho]
  · cases hp.symm.trans h
    rw [acceptWord_of_error hd, finishOp_of_op_nil (s := raiseError (causeCode e) s) ho]

/-- A paused write uses up no input beyond itself. -/
theorem acceptPaused_inputs {s t : State} {w : Word} {k : Nat}
    (h : acceptPaused w k s = .next t) : t.inputs = s.inputs := by
  rcases acceptPaused_cases w k s with ⟨i, -, hp⟩ | ⟨e, -, hp⟩
  · obtain ⟨-, -, -, -, -, -, hin⟩ := runPrims_untouched ((programOf i s).take k) s
    cases hp.symm.trans h
    exact hin
  · cases hp.symm.trans h
    rfl

/-- With RST released and nothing in progress, the step at a paused write accepts its word. -/
theorem step_of_writePaused {s : State} {w : Word} {k : Nat} {rest : List Input} (ho : s.op = [])
    (hr : s.rst = false) (hi : s.inputs = .writePaused w k :: rest) :
    step s = acceptPaused w k { s with inputs := rest } := by
  have hdrop : dropInput s = { s with inputs := rest } := by rw [dropInput, hi, List.tail_cons]
  rw [step_of_input ho hi, hdrop]
  exact if_neg (by simp [hr])

/-- Settles O5: what the pause left to do is what the whole write did besides, and only RST asserted comes
before it. -/
theorem pausedWriteEndsAsTheWholeWrite : Obligations.PausedWriteEndsAsTheWholeWrite := by
  intro s t w k rest ho hr hi h
  have hp : acceptPaused w k { s with inputs := rest } = .next t :=
    (step_of_writePaused ho hr hi).symm.trans h
  have hin : t.inputs = rest := acceptPaused_inputs hp
  refine ⟨acceptWord_eq_finishOp ho hp, fun hop hrest => step_of_op hop fun r => ?_⟩
  rw [hin]
  exact hrest r

/-! ## The two nibbles of a byte -/

theorem highNibble_toNat (v : Byte) : (highNibble v).toNat = v.toNat / 16 := by
  rw [highNibble, BitVec.extractLsb'_toNat, Nat.shiftRight_eq_div_pow]
  omega

theorem lowNibble_toNat (v : Byte) : (lowNibble v).toNat = v.toNat % 16 := by
  rw [lowNibble, BitVec.extractLsb'_toNat, Nat.shiftRight_zero]

/-- The LCD_LOG of a byte sent (R132). -/
theorem runPrims_sendProgram_lcdLog (p : Params) (v : Byte) (rs : Bool) (s : State) :
    (runPrims (sendProgram p v rs) s).lcdLog = s.lcdLog ++ byteLog rs v := by
  rw [runPrims_sendProgram]

/-- Settles O30: LCD.CMD and LCD.DATA are the same `SEND` with the two levels of RS. -/
theorem bytesGoHighNibbleFirst : Obligations.BytesGoHighNibbleFirst := fun s v =>
  ⟨runPrims (lcdCmdProgram v s) s, runPrims (lcdDataProgram v s) s, highNibble v, lowNibble v,
    highNibble_toNat v, lowNibble_toNat v,
    exec_eq_runPrims (.lcdCmd v) s, runPrims_sendProgram_lcdLog s.params v false s,
    exec_eq_runPrims (.lcdData v) s, runPrims_sendProgram_lcdLog s.params v true s⟩

end Sys2Proof.Machine

/-! Encoding and decoding of command words (spec/30_encoding.md): the decoder accepts exactly the words the
encoder gives (R72, R73), rejects every other by cause (R74), and runs what it accepts (R71, R75). -/

namespace Sys2Proof.Machine

/-! ## The command word of each operation as a number (R70, R72) -/

theorem encode_nop_toNat : (encode .nop).toNat = 0 := rfl

theorem encode_lcdInit_toNat : (encode .lcdInit).toNat = 4096 := rfl

theorem encode_lcdCmd_toNat (v : Byte) : (encode (.lcdCmd v)).toNat = 8192 + v.toNat := by
  simp only [encode, append_toNat, BitVec.toNat_ofNat]
  omega

theorem encode_lcdData_toNat (v : Byte) : (encode (.lcdData v)).toNat = 12288 + v.toNat := by
  simp only [encode, append_toNat, BitVec.toNat_ofNat]
  omega

theorem encode_lcdPuts_toNat (len : BitVec 6) : (encode (.lcdPuts len)).toNat = 16384 + len.toNat := by
  simp only [encode, append_toNat, BitVec.toNat_ofNat]
  omega

theorem encode_keyScan_toNat (r : RowIdx) : (encode (.keyScan r)).toNat = 20480 + r.toNat := by
  simp only [encode, append_toNat, BitVec.toNat_ofNat]
  omega

theorem encode_wait_toNat (n : BitVec 12) : (encode (.wait n)).toNat = 24576 + n.toNat :=
  append_toNat 0x6#4 n

theorem encode_putsChar_toNat (c ignored : Byte) :
    (encode (.putsChar c ignored)).toNat = ignored.toNat * 256 + c.toNat :=
  append_toNat ignored c

/-! ## The decoder's arms in numbers -/

theorem field_eq_zero_iff (w : Word) (lo len : Nat) :
    field w lo len = 0 ↔ w.toNat / 2 ^ lo % 2 ^ len = 0 := by
  rw [← field_toNat, ← BitVec.toNat_inj]
  rfl

/-- A must-be-zero field that holds 0 lets its operation through. -/
theorem unlessReserved_field_of_zero {w : Word} {lo len : Nat} (i : Instr)
    (h : w.toNat / 2 ^ lo % 2 ^ len = 0) : unlessReserved (field w lo len) i = .ok i :=
  if_pos ((field_eq_zero_iff w lo len).mpr h)

/-- A must-be-zero field that holds another number rejects the word (R74). -/
theorem unlessReserved_field_of_ne_zero {w : Word} {lo len : Nat} (i : Instr)
    (h : w.toNat / 2 ^ lo % 2 ^ len ≠ 0) : unlessReserved (field w lo len) i = .error .reservedBits :=
  if_neg (mt (field_eq_zero_iff w lo len).mp h)

/-- The LCD.PUTS arm: the reserved-bits check comes before the length check (R203). -/
theorem decodeIdle_of_op_four {w : Word} (h : w.toNat / 4096 = 4) :
    decodeIdle w =
      if w.toNat / 64 % 64 ≠ 0 then .error .reservedBits
      else if 32 < w.toNat % 64 then .error .putsTooLong
      else .ok (.lcdPuts (field w 0 6)) := by
  obtain ⟨-, -, -, -, hputs, -, -, -⟩ := decodeIdle_by_op w
  have hlen : (field w 0 6).toNat = w.toNat % 64 := by rw [field_toNat]; omega
  have hzero : field w 6 6 = 0 ↔ w.toNat / 64 % 64 = 0 := field_eq_zero_iff w 6 6
  simp only [hputs h, hlen, ne_eq, hzero]

/-! ## Decode after encode -/

/-- The word of an operation other than PUTS.CHAR has the operation code of its arm, 0 in the must-be-zero
field and the operands in their fields. -/
theorem decodeIdle_encode {i : Instr} (hwf : i.wellFormed = true) (hadm : i.admitted false = true) :
    decodeIdle (encode i) = .ok i := by
  obtain ⟨-, -, hcmd, hdata, -, hscan, hwait, -⟩ := decodeIdle_by_op (encode i)
  cases i with
  | nop | lcdInit => rfl
  | lcdCmd v =>
    have hw := encode_lcdCmd_toNat v
    rw [hcmd (by omega), unlessReserved_field_of_zero _ (by omega), field_eq (c := v) (by omega)]
  | lcdData v =>
    have hw := encode_lcdData_toNat v
    rw [hdata (by omega), unlessReserved_field_of_zero _ (by omega), field_eq (c := v) (by omega)]
  | lcdPuts len =>
    have hw := encode_lcdPuts_toNat len
    have hlen : len.toNat ≤ 32 := of_decide_eq_true hwf
    rw [decodeIdle_of_op_four (by omega), if_neg (by omega), if_neg (by omega),
      field_eq (c := len) (by omega)]
  | keyScan r =>
    have hw := encode_keyScan_toNat r
    rw [hscan (by omega), unlessReserved_field_of_zero _ (by omega), field_eq (c := r) (by omega)]
  | wait n =>
    have hw := encode_wait_toNat n
    rw [hwait (by omega), field_eq (c := n) (by omega)]
  | putsChar c ignored => cases hadm

/-- A payload word's two bytes are read back (R75). -/
theorem decodePayload_encode (c ignored : Byte) :
    decodePayload (encode (.putsChar c ignored)) = .putsChar c ignored :=
  congrArg₂ Instr.putsChar (extract_append_low ignored c) (extract_append_high ignored c)

/-- An operation is read back from its word in the mode that admits it. -/
theorem decode_encode {payload : Bool} {i : Instr} (hwf : i.wellFormed = true)
    (hadm : i.admitted payload = true) : decode payload (encode i) = .ok i := by
  cases payload with
  | false => exact decodeIdle_encode hwf hadm
  | true =>
    cases i with
    | putsChar c ignored => exact congrArg Except.ok (decodePayload_encode c ignored)
    | _ => cases hadm

/-- Settles O8: the operation code selects the arm, and each operand stands alone in its own field. -/
theorem decodeEncodeIsTheOperation : Obligations.DecodeEncodeIsTheOperation :=
  fun _ _ hwf hadm => decode_encode hwf hadm

/-! ## Which words are rejected (R74) -/

/-- R74's second cause: a nonzero bit in a must-be-zero field of OP 0 to 5. -/
def HasReservedBits (w : Word) : Prop :=
  (w.toNat / 4096 ≤ 1 ∧ w.toNat % 4096 ≠ 0) ∨
  ((w.toNat / 4096 = 2 ∨ w.toNat / 4096 = 3) ∧ w.toNat / 256 % 16 ≠ 0) ∨
  (w.toNat / 4096 = 4 ∧ w.toNat / 64 % 64 ≠ 0) ∨ (w.toNat / 4096 = 5 ∧ w.toNat / 4 % 1024 ≠ 0)

/-- R74's third cause: an LCD.PUTS header of more than 32 characters. -/
def IsLongPuts (w : Word) : Prop :=
  w.toNat / 4096 = 4 ∧ w.toNat / 64 % 64 = 0 ∧ 33 ≤ w.toNat % 64

theorem decodeIdle_of_reservedOp {w : Word} (h : 7 ≤ w.toNat / 4096) :
    decodeIdle w = .error .reservedOp := by
  obtain ⟨-, -, -, -, -, -, -, hreserved⟩ := decodeIdle_by_op w
  exact hreserved h

theorem decodeIdle_of_hasReservedBits {w : Word} (h : HasReservedBits w) :
    decodeIdle w = .error .reservedBits := by
  obtain ⟨hnop, hinit, hcmd, hdata, -, hscan, -, -⟩ := decodeIdle_by_op w
  rcases h with ⟨hop, hz⟩ | ⟨hop | hop, hz⟩ | ⟨hop, hz⟩ | ⟨hop, hz⟩
  · rcases Nat.le_one_iff_eq_zero_or_eq_one.mp hop with hop | hop
    · rw [hnop hop, unlessReserved_field_of_ne_zero _ (by omega)]
    · rw [hinit hop, unlessReserved_field_of_ne_zero _ (by omega)]
  · rw [hcmd hop, unlessReserved_field_of_ne_zero _ hz]
  · rw [hdata hop, unlessReserved_field_of_ne_zero _ hz]
  · rw [decodeIdle_of_op_four hop, if_pos hz]
  · rw [hscan hop, unlessReserved_field_of_ne_zero _ hz]

theorem decodeIdle_of_isLongPuts {w : Word} (h : IsLongPuts w) :
    decodeIdle w = .error .putsTooLong := by
  obtain ⟨hop, hz, hlen⟩ := h
  rw [decodeIdle_of_op_four hop, if_neg (not_not_intro hz), if_pos (by omega)]

/-! ## Encode after decode -/

/-- A word with none of R74's defects is the word of an operation. -/
theorem exists_encode_eq {w : Word} (hop : ¬7 ≤ w.toNat / 4096) (hbits : ¬HasReservedBits w)
    (hlong : ¬IsLongPuts w) :
    ∃ i : Instr, i.wellFormed = true ∧ i.admitted false = true ∧ encode i = w := by
  unfold HasReservedBits at hbits
  unfold IsLongPuts at hlong
  have hops : w.toNat / 4096 = 0 ∨ w.toNat / 4096 = 1 ∨ w.toNat / 4096 = 2 ∨ w.toNat / 4096 = 3 ∨
      w.toNat / 4096 = 4 ∨ w.toNat / 4096 = 5 ∨ w.toNat / 4096 = 6 := by omega
  rcases hops with h | h | h | h | h | h | h
  · exact ⟨.nop, rfl, rfl, BitVec.eq_of_toNat_eq (by rw [encode_nop_toNat]; omega)⟩
  · exact ⟨.lcdInit, rfl, rfl, BitVec.eq_of_toNat_eq (by rw [encode_lcdInit_toNat]; omega)⟩
  · exact ⟨.lcdCmd (field w 0 8), rfl, rfl,
      BitVec.eq_of_toNat_eq (by rw [encode_lcdCmd_toNat, field_toNat]; omega)⟩
  · exact ⟨.lcdData (field w 0 8), rfl, rfl,
      BitVec.eq_of_toNat_eq (by rw [encode_lcdData_toNat, field_toNat]; omega)⟩
  · exact ⟨.lcdPuts (field w 0 6), decide_eq_true (by rw [field_toNat]; omega), rfl,
      BitVec.eq_of_toNat_eq (by rw [encode_lcdPuts_toNat, field_toNat]; omega)⟩
  · exact ⟨.keyScan (field w 0 2), rfl, rfl,
      BitVec.eq_of_toNat_eq (by rw [encode_keyScan_toNat, field_toNat]; omega)⟩
  · exact ⟨.wait (field w 0 12), rfl, rfl,
      BitVec.eq_of_toNat_eq (by rw [encode_wait_toNat, field_toNat]; omega)⟩

/-- Without a PUTS active, an accepted word is the word of a well-formed operation other than PUTS.CHAR. -/
theorem encode_of_decodeIdle {w : Word} {i : Instr} (h : decodeIdle w = .ok i) :
    encode i = w ∧ i.wellFormed = true ∧ i.admitted false = true := by
  have hop : ¬7 ≤ w.toNat / 4096 := fun hd => nomatch (decodeIdle_of_reservedOp hd).symm.trans h
  have hbits : ¬HasReservedBits w := fun hd => nomatch (decodeIdle_of_hasReservedBits hd).symm.trans h
  have hlong : ¬IsLongPuts w := fun hd => nomatch (decodeIdle_of_isLongPuts hd).symm.trans h
  obtain ⟨j, hwf, hadm, rfl⟩ := exists_encode_eq hop hbits hlong
  cases (decodeIdle_encode hwf hadm).symm.trans h
  exact ⟨rfl, hwf, hadm⟩

/-- The payload word of the character that a word is read as is that word. -/
theorem encode_decodePayload (w : Word) : encode (decodePayload w) = w :=
  BitVec.eq_of_toNat_eq (by rw [decodePayload, encode_putsChar_toNat, field_toNat, field_toNat]; omega)

/-- What the decoder accepts in each mode: the words of the well-formed operations admitted in it. -/
theorem decode_eq_ok_iff {payload : Bool} {w : Word} {i : Instr} :
    decode payload w = .ok i ↔ encode i = w ∧ i.wellFormed = true ∧ i.admitted payload = true := by
  constructor
  · intro h
    cases payload with
    | false => exact encode_of_decodeIdle h
    | true =>
      cases h
      exact ⟨encode_decodePayload w, rfl, rfl⟩
  · rintro ⟨rfl, hwf, hadm⟩
    exact decode_encode hwf hadm

/-- Settles O9: a word with no defect is an operation's word, and that word is read back as no other operation. -/
theorem encodeDecodeIsTheWord : Obligations.EncodeDecodeIsTheWord :=
  fun _ _ _ h => decode_eq_ok_iff.mp h

/-! ## The opcode map by mask and match (R72) -/

/-- A mask of the bits from `k` up fixes those bits of a matching word and leaves the `k` low bits free. -/
theorem toNat_of_and_mask {w mask : Word} {n : Nat} (k : Nat) (hmask : mask = BitVec.allOnes 16 <<< k)
    (h : w &&& mask = BitVec.ofNat 16 n) : w.toNat = n % 2 ^ 16 + w.toNat % 2 ^ k := by
  have hle := Nat.div_mul_le_self w.toNat (2 ^ k)
  have hhigh : w.toNat / 2 ^ k * 2 ^ k = n % 2 ^ 16 := by
    rw [← BitVec.toNat_ofNat, ← h, hmask, ← BitVec.shiftLeft_ushiftRight, BitVec.toNat_shiftLeft,
      BitVec.toNat_ushiftRight, Nat.shiftRight_eq_div_pow, Nat.shiftLeft_eq,
      Nat.mod_eq_of_lt (hle.trans_lt w.isLt)]
  rw [← hhigh, Nat.div_add_mod']

/-- Every encoded word matches its row of the opcode map. -/
theorem tableRow (i : Instr) : Laws.TableRow.Statement i := by
  cases i with
  | nop => exact Laws.TableRow.nop
  | lcdInit => exact Laws.TableRow.lcdInit
  | lcdCmd v => exact Laws.TableRow.lcdCmd v
  | lcdData v => exact Laws.TableRow.lcdData v
  | lcdPuts len => exact Laws.TableRow.lcdPuts len
  | keyScan r => exact Laws.TableRow.keyScan r
  | wait n => exact Laws.TableRow.wait n
  | putsChar c ignored => exact Laws.TableRow.putsChar c ignored

/-- A word is read as the operation it is the word of. -/
theorem decode_of_toNat_eq {payload : Bool} {w : Word} {i : Instr} (hw : (encode i).toNat = w.toNat)
    (hwf : i.wellFormed = true) (hadm : i.admitted payload = true) : decode payload w = .ok i :=
  decode_eq_ok_iff.mpr ⟨BitVec.eq_of_toNat_eq hw, hwf, hadm⟩

/-- Settles O6: a row's match fixes every bit but the operand's, so the word is that operation's word; and an
accepted word is the word of some operation, which matches that operation's row. -/
theorem opcodeMapNamesEachOperation : Obligations.OpcodeMapNamesEachOperation := by
  intro w
  refine ⟨fun h => ?nop, fun h => ?lcdInit, fun h => ?lcdCmd, fun h => ?lcdData, fun h hlen => ?lcdPuts,
    fun h => ?keyScan, fun h => ?wait, fun hnop hinit hcmd hdata hputs hscan hwait => ?noRow, ?payload⟩
  case nop =>
    have hw := toNat_of_and_mask 0 rfl h
    exact decode_of_toNat_eq (by rw [encode_nop_toNat]; omega) rfl rfl
  case lcdInit =>
    have hw := toNat_of_and_mask 0 rfl h
    exact decode_of_toNat_eq (by rw [encode_lcdInit_toNat]; omega) rfl rfl
  case lcdCmd =>
    have hw := toNat_of_and_mask 8 rfl h
    exact decode_of_toNat_eq (by rw [encode_lcdCmd_toNat, BitVec.toNat_ofNat]; omega) rfl rfl
  case lcdData =>
    have hw := toNat_of_and_mask 8 rfl h
    exact decode_of_toNat_eq (by rw [encode_lcdData_toNat, BitVec.toNat_ofNat]; omega) rfl rfl
  case lcdPuts =>
    have hw := toNat_of_and_mask 6 rfl h
    exact decode_of_toNat_eq (by rw [encode_lcdPuts_toNat, BitVec.toNat_ofNat]; omega)
      (decide_eq_true (by rw [BitVec.toNat_ofNat]; omega)) rfl
  case keyScan =>
    have hw := toNat_of_and_mask 2 rfl h
    exact decode_of_toNat_eq (by rw [encode_keyScan_toNat, BitVec.toNat_ofNat]; omega) rfl rfl
  case wait =>
    have hw := toNat_of_and_mask 12 rfl h
    exact decode_of_toNat_eq (by rw [encode_wait_toNat, BitVec.toNat_ofNat]; omega) rfl rfl
  case noRow =>
    cases hd : decode false w with
    | error e => exact ⟨e, rfl⟩
    | ok i =>
      obtain ⟨rfl, hwf, hadm⟩ := decode_eq_ok_iff.mp hd
      have hrow := tableRow i
      cases i with
      | nop => exact absurd hrow hnop
      | lcdInit => exact absurd hrow hinit
      | lcdCmd v => exact absurd hrow hcmd
      | lcdData v => exact absurd hrow hdata
      | lcdPuts len =>
        have hlen : len.toNat ≤ 32 := of_decide_eq_true hwf
        exact absurd ⟨hrow, by rw [encode_lcdPuts_toNat]; omega⟩ hputs
      | keyScan r => exact absurd hrow hscan
      | wait n => exact absurd hrow hwait
      | putsChar c ignored => cases hadm
  case payload =>
    exact decode_of_toNat_eq
      (by rw [encode_putsChar_toNat, BitVec.toNat_ofNat, BitVec.toNat_ofNat]; omega) rfl rfl

/-- Settles O7: each word is the encoding of its operation. -/
theorem wordsOfTheFormatsDecode : Obligations.WordsOfTheFormatsDecode :=
  ⟨decode_of_toNat_eq rfl rfl rfl, decode_of_toNat_eq rfl rfl rfl, decode_of_toNat_eq rfl rfl rfl,
    decode_of_toNat_eq rfl rfl rfl, decode_of_toNat_eq rfl rfl rfl, decode_of_toNat_eq rfl rfl rfl,
    decode_of_toNat_eq rfl rfl rfl, decode_of_toNat_eq rfl rfl rfl⟩

/-! ## What a word written to CMD does -/

/-- A decoded word is its operation's meaning (R71). -/
theorem acceptWord_eq_exec {s : State} {w : Word} {i : Instr} (hd : decode (inPayload s) w = .ok i) :
    acceptWord w s = exec i s :=
  (acceptWord_of_ok hd).trans (exec_eq_runPrims i s).symm

/-- Settles O10: each defect is the decoder's own error, and a word with none is some operation's word. -/
theorem reservedWordsTakeTheErrorAction : Obligations.ReservedWordsTakeTheErrorAction := by
  intro s w hs
  have hmode : inPayload s = false := decide_eq_false (not_not_intro hs)
  have reject {e : DecodeError} (hd : decodeIdle w = .error e) :
      acceptWord w s = .next (raiseError (causeCode e) s) :=
    acceptWord_of_error (by rw [hmode]; exact hd)
  refine ⟨fun h => reject (decodeIdle_of_reservedOp h), fun h => reject (decodeIdle_of_hasReservedBits h),
    fun h => reject (decodeIdle_of_isLongPuts h), fun hop hbits hlong => ?_⟩
  obtain ⟨i, hwf, hadm, rfl⟩ := exists_encode_eq hop hbits hlong
  have hd : decode false (encode i) = .ok i := decode_encode hwf hadm
  exact ⟨i, hd, acceptWord_eq_exec (by rw [hmode]; exact hd)⟩

/-- While a PUTS is active a word runs PUTS.CHAR of its low byte alone (R75). -/
theorem acceptWord_inPayload {s : State} (hs : s.putsRem ≠ 0#6) (w : Word) :
    acceptWord w s = .next (runPrims (putsCharProgram (field w 0 8) s) s) :=
  acceptWord_of_ok (decode_inPayload hs w)

/-- Settles O11: both words have one low byte, and PUTS.CHAR sends it between the wraps. -/
theorem everyPayloadWordIsACharacter : Obligations.EveryPayloadWordIsACharacter := by
  intro s w high hs
  have hlow : field w 0 8 = BitVec.ofNat 8 (w.toNat % 256) :=
    field_eq (by rw [BitVec.toNat_ofNat]; omega)
  generalize BitVec.ofNat 8 (w.toNat % 256) = c at hlow ⊢
  have hlow' : field (high ++ c) 0 8 = c := extract_append_low high c
  obtain ⟨-, -, herr, hcause, -⟩ := runPrims_untouched (putsCharProgram c s) s
  have hlog := congrArg State.lcdLog (runPrims_putsCharProgram c s)
  refine ⟨runPrims (putsCharProgram c s) s, _, _, ?_, ?_, hlog, herr, hcause⟩
  · rw [acceptWord_inPayload hs, hlow]
  · rw [acceptWord_inPayload hs, hlow']

/-- With RST released and nothing in progress, the step at a write to CMD accepts its word. -/
theorem step_of_write {s : State} {w : Word} {rest : List Input} (ho : s.op = [])
    (hr : s.rst = false) (hi : s.inputs = .write 0#2 w :: rest) :
    step s = acceptWord w { s with inputs := rest } := by
  have hdrop : dropInput s = { s with inputs := rest } := by rw [dropInput, hi, List.tail_cons]
  rw [step_of_input ho hi, hdrop]
  exact if_neg (by simp [hr])

/-- Settles O13: the step accepts the word, and an accepted word runs its operation. -/
theorem stepRunsTheDecodedOperation : Obligations.StepRunsTheDecodedOperation := by
  intro s w rest i ho hr hi hd
  rw [step_of_write ho hr hi]
  exact acceptWord_eq_exec hd

/-- The 16 bits of a word placed are the word. -/
theorem withFetchWord_toNat (s : State) (w : Word) :
    s.withFetchWord 16 w.toNat = offerWrite w { s with rst := false, op := [] } := by
  rw [State.withFetchWord, Nat.mod_eq_of_lt w.isLt, BitVec.ofNat_toNat, BitVec.setWidth_eq]

/-- Settles O14: the word placed is a write to CMD at the head of the inputs. -/
theorem fetchWordIsTheNextToRun : Obligations.FetchWordIsTheNextToRun := by
  intro s w i hd
  rw [withFetchWord_toNat]
  exact stepRunsTheDecodedOperation _ w s.inputs i rfl rfl rfl hd

/-! ## The assembler's expansions (R78) -/

/-- The host write of an operation's word, from the word's number. -/
theorem writeOf_eq {i : Instr} {n : Nat} (h : (encode i).toNat = n) :
    writeOf i = .write 0#2 (BitVec.ofNat 16 n) := by
  rw [writeOf, ← h, BitVec.ofNat_toNat, BitVec.setWidth_eq]

/-- The write of a character is the character's code with high byte 0 (R77). -/
theorem writeChar_eq (c : Byte) : writeChar c = .write 0#2 (BitVec.ofNat 16 c.toNat) :=
  writeOf_eq (by rw [encode_putsChar_toNat, BitVec.toNat_ofNat]; omega)

/-- The writes of a string: its header, whose length field has room for its length, and its characters. -/
theorem writePuts_eq {text : List Byte} (h : text.length ≤ 32) :
    writePuts text = .write 0#2 (BitVec.ofNat 16 (0x4000 + text.length)) ::
      text.map fun c => .write 0#2 (BitVec.ofNat 16 c.toNat) :=
  congrArg₂ List.cons (writeOf_eq (by rw [encode_lcdPuts_toNat, BitVec.toNat_ofNat]; omega))
    (List.map_congr_left fun c _ => writeChar_eq c)

/-- Settles O12: the header and the characters are the words of their operations, and the other expansions are
closed lists. -/
theorem pseudoInstructionsExpand : Obligations.PseudoInstructionsExpand := by
  refine ⟨fun text h => ?_, fun text h => if_neg (Nat.not_le_of_lt h), rfl, rfl, rfl, rfl⟩
  rw [expand, if_pos h, writePuts_eq h]

end Sys2Proof.Machine

/-! The keypad scanner (spec/40_keypad.md): what KEY.SCAN does to the state (R100, R106), and that its scan-code
table resolves exactly the single keys (R102 to R105, R107). -/

namespace Sys2Proof.Machine

/-! ## R10: the one-hot pattern of an index -/

theorem onehot4_getLsbD (r : RowIdx) {j : Nat} (hj : j < 4) :
    (onehot4 r).getLsbD j = true ↔ j = r.toNat := by
  simp only [onehot4, BitVec.getLsbD_shiftLeft, BitVec.getLsbD_one, Bool.and_eq_true, Bool.not_eq_true',
    decide_eq_true_eq, decide_eq_false_iff_not]
  omega

theorem onehot4_inj {i j : RowIdx} (h : onehot4 i = onehot4 j) : i = j := by
  have hbit : (onehot4 j).getLsbD i.toNat = true := h ▸ (onehot4_getLsbD i i.isLt).mpr rfl
  exact BitVec.eq_of_toNat_eq ((onehot4_getLsbD j i.isLt).mp hbit)

theorem onehot4_ne_zero (j : RowIdx) : onehot4 j ≠ 0#4 := fun h => by
  have hbit : (onehot4 j).getLsbD j.toNat = true := (onehot4_getLsbD j j.isLt).mpr rfl
  simp [h] at hbit

theorem oneHot_iff_popcount_eq_one (c : Nibble) : oneHot c ↔ popcount c = 1 := by
  unfold oneHot
  revert c
  decide

/-! ## R9: what valid parameters give the keypad -/

section
variable {p : Params}

theorem rowIdOf_inj (hp : validParams p) {r q : RowIdx} (h : rowIdOf p r = rowIdOf p q) : r = q := by
  obtain ⟨-, -, -, -, -, hnodup, -⟩ := hp
  refine BitVec.eq_of_toNat_eq ((hnodup.getElem_inj_iff (hi := ?_) (hj := ?_)).mp ?_)
  · simpa using r.isLt
  · simpa using q.isLt
  · rw [Vector.getElem_toList, Vector.getElem_toList]
    exact h

theorem keyAt_mem_alphabet (hp : validParams p) (i j : RowIdx) : keyAt p i j ∈ Config.alphabet.toList := by
  obtain ⟨-, -, -, -, ⟨-, hmem⟩, -⟩ := hp
  exact hmem _ (Vector.mem_toList_iff.mpr (Vector.getElem_mem _))

theorem keyAt_inj (hp : validParams p) {i j k l : RowIdx} (h : keyAt p i j = keyAt p k l) :
    i = k ∧ j = l := by
  obtain ⟨-, -, -, -, ⟨hnodup, -⟩, -⟩ := hp
  have hi := i.isLt
  have hj := j.isLt
  have hk := k.isLt
  have hl := l.isLt
  have hplace : 4 * i.toNat + j.toNat = 4 * k.toNat + l.toNat := by
    refine (hnodup.getElem_inj_iff (hi := ?_) (hj := ?_)).mp ?_
    · simp only [Vector.length_toList]; omega
    · simp only [Vector.length_toList]; omega
    · rw [Vector.getElem_toList, Vector.getElem_toList]
      exact h
  exact ⟨BitVec.eq_of_toNat_eq (by omega), BitVec.eq_of_toNat_eq (by omega)⟩

/-- P_KEYMAP alone gives the character of a key. -/
theorem keyAt_congr {q : Params} (h : q.keymap = p.keymap) (i j : RowIdx) : keyAt q i j = keyAt p i j := by
  simp only [keyAt, h]

/-! ## R102: the scan code -/

theorem pack_toNat_of_rowHigh (h : p.layout = .rowHigh) (r : RowIdx) (c : Nibble) :
    (pack p r c).toNat = (rowIdOf p r).toNat * 16 + c.toNat := by
  simp only [pack, h, append_toNat, Nat.reducePow]

theorem pack_toNat_of_rowLow (h : p.layout = .rowLow) (r : RowIdx) (c : Nibble) :
    (pack p r c).toNat = c.toNat * 16 + (rowIdOf p r).toNat := by
  simp only [pack, h, append_toNat, Nat.reducePow]

/-- The two nibbles of a scan code are read back, whichever of them holds the row identity. -/
theorem pack_nibbles_inj {r q : RowIdx} {c d : Nibble} (h : pack p r c = pack p q d) :
    rowIdOf p r = rowIdOf p q ∧ c = d := by
  have hr := (rowIdOf p r).isLt
  have hq := (rowIdOf p q).isLt
  have hc := c.isLt
  have hd := d.isLt
  have hn := congrArg BitVec.toNat h
  cases hl : p.layout with
  | rowHigh =>
    rw [pack_toNat_of_rowHigh hl, pack_toNat_of_rowHigh hl] at hn
    exact ⟨BitVec.eq_of_toNat_eq (by omega), BitVec.eq_of_toNat_eq (by omega)⟩
  | rowLow =>
    rw [pack_toNat_of_rowLow hl, pack_toNat_of_rowLow hl] at hn
    exact ⟨BitVec.eq_of_toNat_eq (by omega), BitVec.eq_of_toNat_eq (by omega)⟩

theorem pack_inj (hp : validParams p) {r q : RowIdx} {c d : Nibble} (h : pack p r c = pack p q d) :
    r = q ∧ c = d := by
  obtain ⟨hid, hcols⟩ := pack_nibbles_inj h
  exact ⟨rowIdOf_inj hp hid, hcols⟩

/-! ## R103, R104: the table and its lookup -/

theorem mem_scanTable {code x : Byte} :
    (code, x) ∈ scanTable p ↔ ∃ i j : RowIdx, code = pack p i (onehot4 j) ∧ x = keyAt p i j := by
  have hall : ∀ i : RowIdx, i ∈ indices := by decide
  simp [scanTable, hall, eq_comm]

/-- What a lookup finds stands in the table. -/
theorem mem_scanTable_of_lookup {code x : Byte} (h : lookup p code = some x) : (code, x) ∈ scanTable p := by
  obtain ⟨l₁, l₂, hl, -⟩ := List.lookup_eq_some_iff.mp h
  rw [hl]
  exact List.mem_append_right l₁ List.mem_cons_self

/-- With valid parameters the 16 codes are distinct, so a key's own code finds that key. -/
theorem lookup_pack_onehot4 (hp : validParams p) (i j : RowIdx) :
    lookup p (pack p i (onehot4 j)) = some (keyAt p i j) := by
  cases h : lookup p (pack p i (onehot4 j)) with
  | none =>
    have hne := List.lookup_eq_none_iff.mp h _ (mem_scanTable.mpr ⟨i, j, rfl, rfl⟩)
    exact absurd rfl (bne_iff_ne.mp hne)
  | some x =>
    obtain ⟨k, l, hcode, rfl⟩ := mem_scanTable.mp (mem_scanTable_of_lookup h)
    obtain ⟨rfl, hcols⟩ := pack_inj hp hcode
    rw [onehot4_inj hcols]

/-! ## R105: the closed form -/

theorem resolveKey_zero (r : RowIdx) : resolveKey p r 0#4 = none := if_pos rfl

theorem resolveKey_onehot4 (hp : validParams p) (r j : RowIdx) :
    resolveKey p r (onehot4 j) = some (keyAt p r j) :=
  (if_neg (onehot4_ne_zero j)).trans (lookup_pack_onehot4 hp r j)

/-- A scan resolves a key exactly when one column is high, and then the key at that place. -/
theorem resolveKey_eq_some_iff (hp : validParams p) {r : RowIdx} {c : Nibble} {x : Byte} :
    resolveKey p r c = some x ↔ ∃ j : RowIdx, c = onehot4 j ∧ x = keyAt p r j := by
  constructor
  · intro h
    unfold resolveKey at h
    split at h
    · cases h
    · obtain ⟨i, j, hcode, rfl⟩ := mem_scanTable.mp (mem_scanTable_of_lookup h)
      obtain ⟨rfl, rfl⟩ := pack_inj hp hcode
      exact ⟨j, rfl, rfl⟩
  · rintro ⟨j, rfl, rfl⟩
    exact resolveKey_onehot4 hp r j

/-- Neither the layout of the scan code nor the row identities can be seen in what a scan resolves. -/
theorem resolveKey_congr {q : Params} (hp : validParams p) (hq : validParams q) (h : q.keymap = p.keymap)
    (r : RowIdx) (c : Nibble) : resolveKey q r c = resolveKey p r c :=
  Option.ext fun x => by simp only [resolveKey_eq_some_iff hp, resolveKey_eq_some_iff hq, keyAt_congr h]

/-! ## R106, R107: the fields of the result -/

@[simp] theorem keyresChar_keyresWord (valid : Bool) (r : RowIdx) (c : Nibble) (ch : Byte) :
    keyresChar (keyresWord valid r c ch) = ch :=
  extract_append_low _ ch

@[simp] theorem keyresValid_keyresWord (valid : Bool) (r : RowIdx) (c : Nibble) (ch : Byte) :
    keyresValid (keyresWord valid r c ch) = valid := by
  simp only [keyresValid, keyresWord, BitVec.getLsbD_append]
  simp

theorem scanResult_onehot4 (hp : validParams p) (r j : RowIdx) :
    scanResult p r (onehot4 j) = keyresWord true r (onehot4 j) (keyAt p r j) :=
  scanResult_of_some (resolveKey_onehot4 hp r j)

theorem scanResult_zero (r : RowIdx) : scanResult p r 0#4 = keyresWord false r 0#4 0x00#8 :=
  scanResult_of_none (resolveKey_zero r)

end

/-- Settles O32: the nibbles of a code are read back, and the row identities are distinct (R9). -/
theorem scanCodesTellRowsAndColumnsApart : Obligations.ScanCodesTellRowsAndColumnsApart := fun _ r c =>
  ⟨fun h => pack_toNat_of_rowHigh h r c, fun h => pack_toNat_of_rowLow h r c, fun hp _ _ h => pack_inj hp h⟩

/-- Settles O31: the closed form of R105, which names neither the layout nor the row identities. -/
theorem scanResolvesExactlyOneColumn : Obligations.ScanResolvesExactlyOneColumn := by
  intro p hp
  refine ⟨fun r c => ?_, resolveKey_onehot4 hp, fun q hq h r c => ?_⟩
  · rw [← oneHot_iff_popcount_eq_one]
    constructor
    · rintro ⟨x, hx⟩
      obtain ⟨j, hj, -⟩ := (resolveKey_eq_some_iff hp).mp hx
      exact ⟨j, hj⟩
    · rintro ⟨j, rfl⟩
      exact ⟨keyAt p r j, resolveKey_onehot4 hp r j⟩
  · simp only [scanResult, resolveKey_congr hp hq h]

/-- Settles O33: a single key's CHAR is its place in P_KEYMAP, whose entries are distinct characters of the
alphabet (R9). -/
theorem singleKeysGiveDistinctCharacters : Obligations.SingleKeysGiveDistinctCharacters := by
  intro p hp
  refine ⟨fun r j => ?_, fun r j q k h => ?_, fun r => ?_⟩
  · rw [scanResult_onehot4 hp, keyresValid_keyresWord, keyresChar_keyresWord]
    exact ⟨rfl, keyAt_mem_alphabet hp r j⟩
  · rw [scanResult_onehot4 hp, scanResult_onehot4 hp, keyresChar_keyresWord, keyresChar_keyresWord] at h
    exact keyAt_inj hp h
  · rw [scanResult_zero, keyresValid_keyresWord, keyresChar_keyresWord]
    exact ⟨rfl, rfl⟩

/-! ## R100, R106: what KEY.SCAN does to the state -/

/-- KEY.SCAN in one equation, in the terms of R101's draw and R106's result. -/
theorem exec_keyScan (r : RowIdx) (s : State) :
    exec (.keyScan r) s = .next { s with
      row := onehot4 r
      keyres := scanResult s.params r (nextSample s)
      scanLog := s.scanLog ++ [⟨r, nextSample s⟩]
      colDraws := s.colDraws.tail
      drawCount := if s.colDraws.isEmpty then s.drawCount + 1 else s.drawCount
      trace := s.trace ++ [.row (onehot4 r), .wait s.params.tRow, .sample r (nextSample s)] } := by
  have htrace : s.trace ++ [.row (onehot4 r)] ++ [.wait s.params.tRow] ++ [.sample r (nextSample s)] =
      s.trace ++ [.row (onehot4 r), .wait s.params.tRow, .sample r (nextSample s)] := by
    simp only [List.append_assoc, List.cons_append, List.nil_append]
  rw [exec_eq_runPrims, programOf, runPrims_keyScanProgram, ← htrace]
  rfl

/-- A word of OP 5 with a reserved bit set is rejected with cause 2 (R74). -/
theorem acceptWord_of_keyScan_reservedBits {s : State} {w : Word} (hs : s.putsRem = 0#6)
    (hop : w.toNat / 4096 = 5) (hz : w.toNat / 4 % 1024 ≠ 0) :
    acceptWord w s = .next (raiseError 2#4 s) := by
  have hmode : inPayload s = false := decide_eq_false (not_not_intro hs)
  have hbits : HasReservedBits w := .inr (.inr (.inr ⟨hop, hz⟩))
  exact acceptWord_of_error (e := .reservedBits) (by rw [hmode]; exact decodeIdle_of_hasReservedBits hbits)

/-- Settles O28: the equation of KEY.SCAN; its words are its encodings, and R74 rejects the other words of OP 5. -/
theorem keyScanDrivesSamplesAndReports : Obligations.KeyScanDrivesSamplesAndReports := by
  refine ⟨fun s r c hc => ?_, fun r => decode_encode (i := .keyScan r) rfl rfl,
    fun s w => acceptWord_of_keyScan_reservedBits⟩
  obtain rfl : c = nextSample s := hc
  simp only [exec_keyScan, List.isEmpty_iff]
  rfl

/-- No operation but KEY.SCAN writes ROW. -/
theorem row_programOf {i : Instr} (hi : ∀ r, i ≠ .keyScan r) (s : State) :
    (runPrims (programOf i s) s).row = s.row := by
  cases i with
  | nop | wait => rfl
  | keyScan r => exact absurd rfl (hi r)
  | lcdCmd v => rw [programOf, lcdCmdProgram, runPrims_sendProgram]
  | lcdData v => rw [programOf, lcdDataProgram, runPrims_sendProgram]
  | lcdInit => rw [programOf, runPrims_lcdInitProgram]
  | lcdPuts len => rw [programOf, runPrims_lcdPutsProgram]; split <;> rfl
  | putsChar c ignored => rw [programOf, runPrims_putsCharProgram]

/-- Settles O29: KEY.SCAN leaves the one-hot pattern of its row, and the equations of the other programs leave
ROW out. -/
theorem scanAssertsExactlyOneRow : Obligations.ScanAssertsExactlyOneRow := by
  refine ⟨fun s r => ⟨_, exec_keyScan r s, fun j hj => onehot4_getLsbD r hj⟩, fun s t i hi h => ?_⟩
  cases (exec_eq_runPrims i s).symm.trans h
  exact row_programOf hi s

end Sys2Proof.Machine

/-! The LCD family (spec/41_lcd.md): what each operation sends (R134 to R139), that everything a step shows keeps
the bus discipline (R130), and what a whole LCD.PUTS sends and puts on the display (R141, R143). -/

namespace Sys2Proof.Machine

/-! ## Rejected words, settle delays and the five init bytes -/

/-- With no PUTS active, a nonzero must-be-zero field takes the error action with cause 2 (R74, R202). -/
theorem acceptWord_of_hasReservedBits {s : State} {w : Word} (hs : s.putsRem = 0#6) (h : HasReservedBits w) :
    acceptWord w s = .next (raiseError 2#4 s) := by
  obtain ⟨-, hbits, -, -⟩ := reservedWordsTakeTheErrorAction s w hs
  exact hbits h

/-- With no PUTS active, a header of more than 32 characters takes the error action with cause 3 (R74, R202). -/
theorem acceptWord_of_isLongPuts {s : State} {w : Word} (hs : s.putsRem = 0#6) (h : IsLongPuts w) :
    acceptWord w s = .next (raiseError 3#4 s) := by
  obtain ⟨-, -, hlong, -⟩ := reservedWordsTakeTheErrorAction s w hs
  exact hlong h

/-- A command byte settles as R133 has it. -/
theorem byteEvents_settle_cmd (p : Params) (v : Byte) :
    byteEvents p false v (settle p v false) = cmdEvents p v := by
  simp [cmdEvents, settle]

/-- A character settles short, even one that is a byte of P_LONG_CMDS (R133). -/
theorem byteEvents_settle_data (p : Params) (v : Byte) :
    byteEvents p true v (settle p v true) = dataEvents p v := by
  simp [dataEvents, settle]

/-- The bytes of P_INIT_SEQ in the order of their index. -/
theorem initSeq_toList (p : Params) : p.initSeq.toList = (List.finRange 5).map fun k => p.initSeq[k] :=
  List.ext_getElem (by simp) fun i _ _ => by simp

/-! ## R134 to R139: what each operation does to the state -/

/-- Settles O23: SEND with RS = 0. -/
theorem lcdCmdSendsOneCommandByte : Obligations.LcdCmdSendsOneCommandByte := by
  refine fun s v => ⟨?_, decode_encode (i := .lcdCmd v) rfl rfl, fun w hs hop hz =>
    acceptWord_of_hasReservedBits hs (.inr (.inl ⟨.inl hop, hz⟩)), rfl⟩
  rw [exec_eq_runPrims, programOf, lcdCmdProgram, runPrims_sendProgram, byteEvents_settle_cmd]
  rfl

/-- Settles O24: SEND with RS = 1. -/
theorem lcdDataSendsOneCharacterByte : Obligations.LcdDataSendsOneCharacterByte := by
  refine fun s v => ⟨?_, decode_encode (i := .lcdData v) rfl rfl, fun w hs hop hz =>
    acceptWord_of_hasReservedBits hs (.inr (.inl ⟨.inr hop, hz⟩))⟩
  rw [exec_eq_runPrims, programOf, lcdDataProgram, runPrims_sendProgram, byteEvents_settle_data]
  rfl

/-- Settles O25: the five rounds in order, two transfers each. -/
theorem lcdInitSendsTheFixedSequence : Obligations.LcdInitSendsTheFixedSequence := by
  refine fun s => ⟨?_, by simp [byteLog], decode_encode (i := .lcdInit) rfl rfl, fun w hs hop hz =>
    acceptWord_of_hasReservedBits hs (.inl ⟨hop.le, hz⟩)⟩
  rw [exec_eq_runPrims, programOf, runPrims_lcdInitProgram, initSeq_toList, List.flatMap_map]
  simp only [byteEvents_settle_cmd]

/-- Settles O26: the program of the header only sets the two counters; a word of OP 4 is the encoding of a header or
has one of R74's defects. -/
theorem lcdPutsOpensThePayloadWindow : Obligations.LcdPutsOpensThePayloadWindow := by
  refine ⟨fun s len => ?_, fun len hlen => decode_encode (i := .lcdPuts len) (decide_eq_true hlen) rfl,
    fun s len hs hlen => acceptWord_of_isLongPuts hs ?_,
    fun s w hs hop hz => acceptWord_of_hasReservedBits hs (.inr (.inr (.inl ⟨hop, hz⟩)))⟩
  · rw [exec_eq_runPrims, programOf, runPrims_lcdPutsProgram]
  · have hw : (0x4#4 ++ 0#6 ++ len : Word).toNat = 16384 + len.toNat := encode_lcdPuts_toNat len
    unfold IsLongPuts
    omega

/-- The wrap before the character, as R139 tests it. -/
theorem wrapsBefore_eq (s : State) :
    wrapsBefore s = decide (s.params.wrapPolicy = .lazy ∧ s.charCnt = 16#6) := rfl

/-- The wrap after the character: CHARCNT is 16 after its increment when it was 15 before. -/
theorem wrapsAfter_eq (s : State) :
    wrapsAfter s = decide (s.params.wrapPolicy = .eager ∧ s.charCnt = 15#6) :=
  Bool.eq_iff_iff.mpr ((wrapsAfter_iff s).trans decide_eq_true_iff.symm)

/-- PUTS.CHAR in an active PUTS (R139): PUTS_REM goes down by one, and CHARCNT counts unless this was the last
character. -/
theorem runPrims_putsCharProgram_active (c : Byte) {s : State} (hs : s.putsRem ≠ 0#6) :
    runPrims (putsCharProgram c s) s =
      { s with
        lcdRs := !wrapsAfter s, lcdE := false
        lcdD := if wrapsAfter s then 0x0#4 else lowNibble c
        lcdLog := s.lcdLog ++ (if wrapsBefore s then byteLog false Config.wrapCmd else []) ++
          byteLog true c ++ (if wrapsAfter s then byteLog false Config.wrapCmd else [])
        charCnt := if s.putsRem = 1#6 then 0#6 else s.charCnt + 1#6
        putsRem := s.putsRem - 1#6
        trace := s.trace ++ (if wrapsBefore s then cmdEvents s.params Config.wrapCmd else []) ++
          dataEvents s.params c ++ (if wrapsAfter s then cmdEvents s.params Config.wrapCmd else []) } := by
  have hlast : s.putsRem - 1#6 = 0#6 ↔ s.putsRem = 1#6 := sub_eq_zero
  have hwrap : lowNibble Config.wrapCmd = 0x0#4 := rfl
  simp only [runPrims_putsCharProgram, if_neg hs, hlast, byteEvents_settle_cmd, byteEvents_settle_data,
    apply_ite lowNibble, hwrap]

/-- Settles O27: the equation of PUTS.CHAR, with its two tests on CHARCNT at the start. -/
theorem putsCharSendsWrapsAndCounts : Obligations.PutsCharSendsWrapsAndCounts := by
  intro s c ignored hs before after
  rw [exec_eq_runPrims, programOf, runPrims_putsCharProgram_active c hs, wrapsBefore_eq, wrapsAfter_eq]
  rfl

/-! ## R130: the bus discipline -/

/-- Observations that start and end with LCD_E low and change RS and LCD_D only while it is low. -/
def KeepsBus (es : List Event) : Prop := es.foldl busSee (some false) = some false

theorem KeepsBus.append {es fs : List Event} (he : KeepsBus es) (hf : KeepsBus fs) : KeepsBus (es ++ fs) := by
  rw [KeepsBus, List.foldl_append, he, hf]

theorem keepsBus_ite {b : Bool} {es : List Event} (he : KeepsBus es) : KeepsBus (if b then es else []) := by
  cases b
  · rfl
  · exact he

theorem keepsBus_flatMap {α : Type} (ks : List α) {f : α → List Event} (hf : ∀ k, KeepsBus (f k)) :
    KeepsBus (ks.flatMap f) := by
  induction ks with
  | nil => rfl
  | cons k ks ih => exact (hf k).append ih

/-- SEND presents RS and LCD_D before each rise of LCD_E and changes them after its fall (R131, R132). -/
theorem keepsBus_byteEvents (p : Params) (rs : Bool) (v : Byte) (t : Nat) : KeepsBus (byteEvents p rs v t) := rfl

/-- What an operation shows keeps the discipline. -/
theorem programOf_keepsBus (i : Instr) (s : State) :
    ∃ es, (runPrims (programOf i s) s).trace = s.trace ++ es ∧ KeepsBus es := by
  cases i with
  | nop => exact ⟨[], (List.append_nil _).symm, rfl⟩
  | wait n => exact ⟨[.wait n.toNat], rfl, rfl⟩
  | lcdCmd v =>
    rw [programOf, lcdCmdProgram, runPrims_sendProgram]
    exact ⟨_, rfl, keepsBus_byteEvents ..⟩
  | lcdData v =>
    rw [programOf, lcdDataProgram, runPrims_sendProgram]
    exact ⟨_, rfl, keepsBus_byteEvents ..⟩
  | lcdInit =>
    rw [programOf, runPrims_lcdInitProgram]
    refine ⟨_, List.append_assoc .., .append rfl (keepsBus_flatMap _ fun k => ?_)⟩
    exact (keepsBus_byteEvents ..).append rfl
  | lcdPuts len =>
    rw [programOf, runPrims_lcdPutsProgram]
    exact ⟨[], by split <;> exact (List.append_nil _).symm, rfl⟩
  | keyScan r =>
    rw [programOf, runPrims_keyScanProgram]
    exact ⟨[.row (onehot4 r), .wait s.params.tRow, .sample r (nextSample s)], by
      simp [nextSample], rfl⟩
  | putsChar c ignored =>
    rw [programOf, runPrims_putsCharProgram]
    refine ⟨_, (congrArg (· ++ _) (List.append_assoc ..)).trans (List.append_assoc ..), ?_⟩
    exact ((keepsBus_ite (keepsBus_byteEvents ..)).append (keepsBus_byteEvents ..)).append
      (keepsBus_ite (keepsBus_byteEvents ..))

/-- Once broken, the discipline stays broken. -/
theorem foldl_busSee_none (es : List Event) : es.foldl busSee none = none := by
  induction es with
  | nil => rfl
  | cons e es ih => exact ih

/-- With no operation in progress the discipline is about the trace itself. -/
theorem busDiscipline_iff {s : State} (ho : s.op = []) : BusDiscipline s ↔ KeepsBus s.trace := by
  rw [BusDiscipline, finishOp_of_op_nil ho, KeepsBus]

/-- Between operations the discipline stays where the trace stays. -/
theorem BusDiscipline.of_same {s t : State} (h : BusDiscipline s) (ho : s.op = []) (hto : t.op = [])
    (htrace : t.trace = s.trace) : BusDiscipline t := by
  rw [busDiscipline_iff hto, htrace]
  exact (busDiscipline_iff ho).mp h

/-- RST pulls LCD_E low wherever it cuts an operation (R231): what was shown so far broke nothing, or the whole
operation would have. -/
theorem BusDiscipline.keepsBus_rst {s : State} (h : BusDiscipline s) (b : Bool) :
    KeepsBus (s.trace ++ [.rst b]) := by
  obtain ⟨es, hes⟩ := runPrims_trace s.op s
  have hfold : (s.trace ++ es).foldl busSee (some false) = some false := hes ▸ h
  rw [List.foldl_append] at hfold
  rw [KeepsBus, List.foldl_concat]
  cases hpre : s.trace.foldl busSee (some false) with
  | none => rw [hpre, foldl_busSee_none] at hfold; cases hfold
  | some e => rfl

/-- Settles O38: each operation that runs or is paused adds observations that keep the discipline, and RST may cut
one anywhere. -/
theorem everyStepKeepsTheBusDiscipline : Obligations.EveryStepKeepsTheBusDiscipline := by
  intro s t hs hstep
  have hrun (i : Instr) (ho : s.op = []) :
      KeepsBus (runPrims (programOf i (dropInput s)) (dropInput s)).trace := by
    obtain ⟨es, htrace, hes⟩ := programOf_keepsBus i (dropInput s)
    rw [htrace]
    exact ((busDiscipline_iff ho).mp hs).append hes
  cases step_cases hstep with
  | reset => exact (busDiscipline_iff rfl).mpr (hs.keepsBus_rst true)
  | finish | idle => exact hs
  | read off rest ho =>
    have hread : KeepsBus [.hostRead off (readWindow off (dropInput s))] := rfl
    exact (busDiscipline_iff (s := hostRead off (dropInput s)) ho).mpr (((busDiscipline_iff ho).mp hs).append hread)
  | release rest ho =>
    unfold releaseRst
    split
    · exact (busDiscipline_iff rfl).mpr (hs.keepsBus_rst false)
    · exact hs.of_same ho ho rfl
  | ignored _ _ ho | reject _ _ _ _ ho => exact hs.of_same ho ho rfl
  | run w rest i ho =>
    obtain ⟨-, -, -, -, -, hop, -⟩ := runPrims_untouched (programOf i (dropInput s)) (dropInput s)
    exact (busDiscipline_iff (hop.trans ho)).mpr (hrun i ho)
  | pause w k rest i ho =>
    rw [BusDiscipline, finishOp_beginOp]
    exact hrun i ho

/-! ## R141: the transfers of a whole LCD.PUTS -/

/-- Both policies wrap a text of more than 16 characters, and EAGER one of exactly 16 (R140). -/
theorem wrapsText_iff {policy : WrapPolicy} {n : Nat} :
    wrapsText policy n = true ↔ 16 < n ∨ policy = .eager ∧ n = 16 := by
  cases policy with
  | lazy => simp [wrapsText, Nat.succ_le_iff]
  | eager => simp [wrapsText]; omega

/-- One character more adds its own transfers, with the wrap LAZY sends before the 17th character or EAGER after
the 16th (R140). -/
theorem putsLog_concat (policy : WrapPolicy) (text : List Byte) (c : Byte) :
    putsLog policy (text ++ [c]) = putsLog policy text ++
      (if policy = .lazy ∧ text.length = 16 then byteLog false Config.wrapCmd else []) ++ byteLog true c ++
      (if policy = .eager ∧ text.length = 15 then byteLog false Config.wrapCmd else []) := by
  rcases Nat.lt_or_ge text.length 16 with hlt | hge
  · have htake : (text ++ [c]).take 16 = text ++ [c] := List.take_of_length_le (by simp; omega)
    have hdrop : (text ++ [c]).drop 16 = [] := List.drop_of_length_le (by simp; omega)
    have hold : ¬wrapsText policy text.length = true := by rw [wrapsText_iff]; omega
    have hnew : wrapsText policy (text.length + 1) = true ↔ policy = .eager ∧ text.length = 15 := by
      simp [wrapsText_iff, hlt.not_ge]
    simp [putsLog, htake, hdrop, List.take_of_length_le hlt.le, List.drop_of_length_le hlt.le, hold, hnew, hlt.ne]
  · have htake : (text ++ [c]).take 16 = text.take 16 := List.take_append_of_le_length hge
    have hdrop : (text ++ [c]).drop 16 = text.drop 16 ++ [c] := List.drop_append_of_le_length hge
    have hnew : wrapsText policy (text.length + 1) = true := wrapsText_iff.mpr (.inl (Nat.lt_succ_of_le hge))
    have hne : text.length ≠ 15 := by omega
    by_cases hwrap : policy = .lazy ∧ text.length = 16
    · obtain ⟨rfl, hlen⟩ := hwrap
      have hold : ¬wrapsText .lazy 16 = true := by decide
      rw [hlen] at hnew
      simp [putsLog, htake, hdrop, List.drop_of_length_le hlen.le, hold, hnew, hlen]
    · have hold : wrapsText policy text.length = true := by
        rw [wrapsText_iff]
        rcases hge.lt_or_eq with hgt | heq
        · exact .inl hgt
        · cases policy with
          | lazy => exact absurd ⟨rfl, heq.symm⟩ hwrap
          | eager => exact .inr ⟨rfl, heq.symm⟩
      simp [putsLog, htake, hdrop, hold, hnew, hwrap, hne]

/-- `t` is `s` in the middle of an LCD.PUTS: `text` has been sent, `left` characters are to come, and the host does
`inputs` next. CHARCNT counts `text` until the PUTS ends (R139). Of the pins, LCD_RS and LCD_D are left open. -/
def HasSent (s : State) (text : List Byte) (left : Nat) (inputs : List Input) (t : State) : Prop :=
  ∃ (rs : Bool) (d : Nibble) (es : List Event), t = { s with
    inputs := inputs, putsRem := BitVec.ofNat 6 left
    charCnt := if left = 0 then 0#6 else BitVec.ofNat 6 text.length
    lcdLog := s.lcdLog ++ putsLog s.params.wrapPolicy text
    lcdRs := rs, lcdD := d, lcdE := false, trace := es }

/-- The step at the header: nothing is sent yet and `n` characters are to come; with n = 0 the PUTS is over. -/
theorem step_of_putsHeader {s : State} {n : Nat} {rest : List Input} (ho : s.op = []) (hr : s.rst = false)
    (hs : Settled s) (hrem : s.putsRem = 0#6) (hn : n ≤ 32)
    (hi : s.inputs = .write 0#2 (BitVec.ofNat 16 (0x4000 + n)) :: rest) :
    ∃ t, step s = .next t ∧ HasSent s [] n rest t := by
  have hmode : inPayload s = false := decide_eq_false (not_not_intro hrem)
  have hlen : (BitVec.ofNat 6 n).toNat = n := by rw [BitVec.toNat_ofNat]; omega
  have hd : decode (inPayload s) (BitVec.ofNat 16 (0x4000 + n)) = .ok (.lcdPuts (BitVec.ofNat 6 n)) := by
    rw [hmode]
    exact decode_of_toNat_eq (by rw [encode_lcdPuts_toNat, hlen, BitVec.toNat_ofNat]; omega)
      (decide_eq_true (by omega)) rfl
  refine ⟨_, (step_of_write ho hr hi).trans (acceptWord_of_ok hd), s.lcdRs, s.lcdD, s.trace, ?_⟩
  rw [programOf, runPrims_lcdPutsProgram]
  have hlog : s.lcdLog ++ putsLog s.params.wrapPolicy [] = s.lcdLog := by
    cases s.params.wrapPolicy <;> exact List.append_nil _
  rw [hlog, ← hs.strobeLow]
  by_cases hz : n = 0
  · subst hz
    simp [hrem, hs.cntZero hrem]
  · have hz' : BitVec.ofNat 6 n ≠ 0#6 := fun h => hz (by rw [← hlen, h]; rfl)
    rw [if_neg hz', if_neg hz]
    rfl

/-- The step at a payload word runs PUTS.CHAR of its low byte (R75). -/
theorem step_of_payloadWord {s : State} {w : Word} {rest : List Input} (ho : s.op = []) (hr : s.rst = false)
    (hrem : s.putsRem ≠ 0#6) (hi : s.inputs = .write 0#2 w :: rest) :
    step s = .next
      (runPrims (putsCharProgram (w.setWidth 8) { s with inputs := rest }) { s with inputs := rest }) := by
  have hlow : field w 0 8 = w.setWidth 8 := field_eq (by simp)
  rw [step_of_write ho hr hi, acceptWord_inPayload (s := { s with inputs := rest }) hrem, hlow]

/-- PUTS.CHAR sends one character more, with its wrap, and counts it. -/
theorem HasSent.putsChar {s t : State} {text : List Byte} {left : Nat} {inputs : List Input}
    (h : HasSent s text (left + 1) inputs t) (hlen : text.length + left + 1 ≤ 32) (c : Byte) :
    HasSent s (text ++ [c]) left inputs (runPrims (putsCharProgram c t) t) := by
  obtain ⟨rs, d, es, ht⟩ := h
  have hparams : t.params = s.params := by rw [ht]
  have hrem : t.putsRem = BitVec.ofNat 6 (left + 1) := by rw [ht]
  have hcnt : t.charCnt = BitVec.ofNat 6 text.length := by rw [ht]; simp
  have hlog : t.lcdLog = s.lcdLog ++ putsLog s.params.wrapPolicy text := by rw [ht]
  have hcntEq (n : Nat) (hn : n ≤ 32) : t.charCnt = BitVec.ofNat 6 n ↔ text.length = n := by
    rw [hcnt]; bv_omega
  have hbefore : wrapsBefore t = true ↔ s.params.wrapPolicy = .lazy ∧ text.length = 16 := by
    rw [wrapsBefore_iff, hparams, hcntEq 16 (by decide)]
  have hafter : wrapsAfter t = true ↔ s.params.wrapPolicy = .eager ∧ text.length = 15 := by
    rw [wrapsAfter_iff, hparams, hcntEq 15 (by decide)]
  have hrem' : t.putsRem - 1#6 = BitVec.ofNat 6 left := by bv_omega
  have hlast : t.putsRem = 1#6 ↔ left = 0 := by bv_omega
  have hcnt' : t.charCnt + 1#6 = BitVec.ofNat 6 (text ++ [c]).length := by
    rw [hcnt, List.length_append, List.length_singleton, BitVec.ofNat_add]
  have hlog' : t.lcdLog ++ (if wrapsBefore t then byteLog false Config.wrapCmd else []) ++ byteLog true c ++
      (if wrapsAfter t then byteLog false Config.wrapCmd else []) =
      s.lcdLog ++ putsLog s.params.wrapPolicy (text ++ [c]) := by
    simp only [hlog, hbefore, hafter, putsLog_concat, List.append_assoc]
  rw [runPrims_putsCharProgram_active c (by bv_omega), hrem', hcnt', hlog', if_congr hlast rfl rfl]
  subst ht
  exact ⟨_, _, _, rfl⟩

/-- The step at a payload word sends its low byte. -/
theorem HasSent.step {s t : State} {text : List Byte} {left : Nat} {w : Word} {inputs : List Input}
    (h : HasSent s text (left + 1) (.write 0#2 w :: inputs) t) (ho : s.op = []) (hr : s.rst = false)
    (hlen : text.length + left + 1 ≤ 32) :
    ∃ u, step t = .next u ∧ HasSent s (text ++ [w.setWidth 8]) left inputs u := by
  obtain ⟨rs, d, es, ht⟩ := h
  have hto : t.op = [] := by rw [ht, ho]
  have htr : t.rst = false := by rw [ht, hr]
  have hti : t.inputs = .write 0#2 w :: inputs := by rw [ht]
  have hrem : t.putsRem ≠ 0#6 := by rw [ht]; bv_omega
  have hdrop : HasSent s text (left + 1) inputs { t with inputs := inputs } := ⟨rs, d, es, by rw [ht]⟩
  exact ⟨_, step_of_payloadWord hto htr hrem hti, hdrop.putsChar hlen _⟩

/-- The payload words of a PUTS are as many steps, after which it has sent them all. -/
theorem HasSent.run {s : State} (ho : s.op = []) (hr : s.rst = false) {rest : List Input} (ws : List Word) :
    ∀ {t : State} {text : List Byte}, text.length + ws.length ≤ 32 →
      HasSent s text ws.length (ws.map (.write 0#2) ++ rest) t →
      ∃ u, Host.Core.run Sys2Proof.core ws.length t = .next u ∧
        HasSent s (text ++ ws.map (BitVec.setWidth 8)) 0 rest u := by
  induction ws with
  | nil => exact fun _ h => ⟨_, run_zero _, by simpa using h⟩
  | cons w ws ih =>
    intro t text hlen h
    rw [List.length_cons] at hlen
    obtain ⟨u, hstep, hu⟩ := HasSent.step h ho hr hlen
    obtain ⟨v, hrun, hv⟩ := ih (by rw [List.length_append, List.length_singleton]; omega) hu
    exact ⟨v, (run_succ hstep _).trans hrun, by simpa using hv⟩

/-- Settles O45: the header opens the window, and each word in it sends one character until the PUTS is over. -/
theorem putsSendsTheWrappedText : Obligations.PutsSendsTheWrappedText := by
  intro s ws rest ho hr hs hrem hlen hi
  obtain ⟨t, hstep, ht⟩ := step_of_putsHeader ho hr hs hrem hlen hi
  obtain ⟨u, hrun, rs, d, es, hu⟩ := HasSent.run ho hr ws (by simpa using hlen) ht
  refine ⟨u, (run_succ hstep _).trans hrun, ?_⟩
  subst hu
  simp [hrem, hs.cntZero hrem, hs.strobeLow]


/-! ## R141, R143: what a whole LCD.PUTS puts on the display -/

/-- The display after taking `text` as data bytes. -/
def Display.write (d : Display) (text : List Byte) : Display := (text.map (true, ·)).foldl Display.take d

@[simp] theorem Display.write_nil (d : Display) : d.write [] = d := rfl

/-- The first character is written at the cursor, the others from the place after it. -/
@[simp] theorem Display.write_cons (d : Display) (c : Byte) (text : List Byte) :
    d.write (c :: text) = Display.write ⟨d.cursor + 1, (d.cursor, c) :: d.cells⟩ text := rfl

/-- A text leaves every place it does not reach. -/
theorem Display.charAt_write_of_ne (text : List Byte) :
    ∀ (d : Display) (a : BitVec 7), (∀ j < text.length, a ≠ d.cursor + BitVec.ofNat 7 j) →
      (d.write text).charAt a = d.charAt a := by
  induction text with
  | nil => exact fun _ _ _ => rfl
  | cons c text ih =>
    intro d a h
    have hhead : a ≠ d.cursor := by simpa using h 0 (by simp)
    rw [write_cons, ih _ _ fun j hj => ?_]
    · simp [charAt, List.lookup_cons, beq_false_of_ne hhead]
    · have hnext : d.cursor + 1 + BitVec.ofNat 7 j = d.cursor + BitVec.ofNat 7 (j + 1) := by bv_omega
      rw [hnext]
      exact h (j + 1) (Nat.succ_lt_succ hj)

/-- Character `k` of a text that does not wrap around the display's memory stands `k` places after the cursor. -/
theorem Display.charAt_write {text : List Byte} {k : Nat} {c : Byte} :
    ∀ {d : Display}, text.length ≤ 128 → text[k]? = some c →
      (d.write text).charAt (d.cursor + BitVec.ofNat 7 k) = c := by
  induction text generalizing k with
  | nil => intro _ _ h; cases h
  | cons x text ih =>
    intro d hlen h
    rw [List.length_cons] at hlen
    rw [write_cons]
    cases k with
    | zero =>
      cases h
      rw [charAt_write_of_ne _ _ _ fun j hj => by bv_omega]
      simp [charAt]
    | succ k =>
      have hplace : d.cursor + BitVec.ofNat 7 (k + 1) = d.cursor + 1 + BitVec.ofNat 7 k := by bv_omega
      rw [hplace]
      exact ih (by omega) h

/-- The two nibbles of a byte, high nibble first, are that byte again (R132). -/
theorem highNibble_append_lowNibble (v : Byte) : highNibble v ++ lowNibble v = v := by
  apply BitVec.eq_of_toNat_eq
  rw [append_toNat, highNibble_toNat, lowNibble_toNat]
  omega

/-- The display takes the transfers of a byte as that byte. -/
theorem bytesOf_byteLog_append (rs : Bool) (v : Byte) (log : List Transfer) :
    bytesOf (byteLog rs v ++ log) = (rs, v) :: bytesOf log :=
  congrArg (fun b => (rs, b) :: bytesOf log) (highNibble_append_lowNibble v)

/-- The display takes the transfers of a text as that text. -/
theorem bytesOf_flatMap_byteLog_append (rs : Bool) (text : List Byte) (log : List Transfer) :
    bytesOf (text.flatMap (byteLog rs) ++ log) = text.map (rs, ·) ++ bytesOf log := by
  induction text with
  | nil => rfl
  | cons v text ih =>
    rw [List.flatMap_cons, List.append_assoc, bytesOf_byteLog_append, ih, List.map_cons, List.cons_append]

/-- WRAP_CMD moves the cursor to the start of line 2 and no character (R56, R143). -/
theorem Display.take_wrapCmd (d : Display) : d.take (false, Config.wrapCmd) = { d with cursor := 0x40#7 } := rfl

/-- A PUTS writes its first 16 characters, moves to line 2 where a wrap is due, and writes the others. -/
theorem Display.after_putsLog (policy : WrapPolicy) (text : List Byte) (d : Display) :
    d.after (putsLog policy text) =
      (if wrapsText policy text.length then { d.write (text.take 16) with cursor := 0x40#7 }
        else d.write (text.take 16)).write (text.drop 16) := by
  have htail : bytesOf ((text.drop 16).flatMap (byteLog true)) = (text.drop 16).map (true, ·) := by
    rw [← List.append_nil (List.flatMap _ _), bytesOf_flatMap_byteLog_append]
    exact List.append_nil _
  rw [after, putsLog, List.append_assoc, bytesOf_flatMap_byteLog_append, List.foldl_append]
  split
  · rw [bytesOf_byteLog_append, htail, List.foldl_cons, take_wrapCmd]
    rfl
  · rw [List.nil_append, htail]
    rfl

/-- Settles O46: line 1 holds the first 16 characters, which the second write does not reach, and with a 17th
character the second write starts at line 2. -/
theorem wrappedTextFillsTheTwoLines : Obligations.WrappedTextFillsTheTwoLines := by
  intro policy text d hlen hd k c hk
  have hklen : k < text.length := (List.getElem?_eq_some_iff.mp hk).1
  rw [Display.after_putsLog]
  rcases Nat.lt_or_ge k 16 with hline | hline
  · have hfirst : (d.write (text.take 16)).charAt (placeOf k) = c := by
      have hplace : placeOf k = d.cursor + BitVec.ofNat 7 k := by rw [placeOf, if_pos hline, hd, BitVec.zero_add]
      rw [hplace]
      exact Display.charAt_write (by rw [List.length_take]; omega) (by rw [List.getElem?_take_of_lt hline, hk])
    rcases Nat.lt_or_ge 16 text.length with hlong | hshort
    · rw [if_pos (wrapsText_iff.mpr (.inl hlong)), Display.charAt_write_of_ne]
      · exact hfirst
      · intro j hj
        rw [List.length_drop] at hj
        rw [placeOf, if_pos hline]
        bv_omega
    · rw [List.drop_of_length_le hshort, Display.write_nil]
      split <;> exact hfirst
  · rw [if_pos (wrapsText_iff.mpr (.inl (by omega))), placeOf, if_neg (by omega)]
    refine Display.charAt_write (d := { d.write (text.take 16) with cursor := 0x40#7 }) ?_ ?_
    · rw [List.length_drop]; omega
    · rw [List.getElem?_drop, Nat.add_sub_cancel' hline, hk]

end Sys2Proof.Machine

/-! The control family (spec/42_control.md): NOP and WAIT (R180, R181), what the host reads (R182, R183) and the
writes that are ignored (R184). -/

namespace Sys2Proof.Machine

/-! ## R182, R183: what the host reads -/

/-- `{0b00, PUTS_REM, CAUSE, 0b00, INIT_DONE, ERR}` as a number. -/
theorem statusWord_toNat (s : State) :
    (statusWord s).toNat =
      s.putsRem.toNat * 256 + s.cause.toNat * 16 + s.initDone.toNat * 2 + s.err.toNat := by
  simp only [statusWord, append_toNat, BitVec.toNat_ofBool, BitVec.toNat_zero]
  omega

/-- CMD and offset 3 read as 0. -/
theorem readWindow_of_no_register {off : Offset} (hkeyres : off ≠ 1#2) (hstatus : off ≠ 2#2) (s : State) :
    readWindow off s = 0x0000#16 := by
  unfold readWindow
  split
  · exact absurd rfl hkeyres
  · exact absurd rfl hstatus
  · rfl

/-- With nothing in progress, the step at a host read only shows the value read. -/
theorem step_of_read {s : State} {off : Offset} {rest : List Input} (ho : s.op = [])
    (hi : s.inputs = .read off :: rest) :
    step s = .next { s with inputs := rest, trace := s.trace ++ [.hostRead off (readWindow off s)] } := by
  have hdrop : dropInput s = { s with inputs := rest } := by rw [dropInput, hi, List.tail_cons]
  rw [step_of_input ho hi, hdrop]
  rfl

/-- Settles O16: STATUS is a sum of its fields, each below the next one's weight. -/
theorem hostReadOfStatusAndTheRest : Obligations.HostReadOfStatusAndTheRest := by
  intro s off rest ho hi hkeyres
  refine ⟨readWindow off s, step_of_read ho hi, ?_, fun hstatus => readWindow_of_no_register hkeyres hstatus s⟩
  rintro rfl
  exact statusWord_toNat s

/-- Settles O17: the value read at offset 1 is KEYRES. -/
theorem hostReadOfKeyres : Obligations.HostReadOfKeyres :=
  fun _ _ ho hi => step_of_read ho hi

/-! ## R184: writes that are ignored -/

/-- A host write to another offset than CMD's does nothing, with RST asserted or released. -/
theorem hostWrite_of_ne_cmd {off : Offset} (hoff : off ≠ 0#2) (v : Word) (s : State) :
    hostWrite off v s = .next s := by
  unfold hostWrite
  split
  · rfl
  · split
    · exact absurd rfl hoff
    · rfl

/-- Settles O18: the step takes the write, which does nothing. -/
theorem strayHostWritesAreIgnored : Obligations.StrayHostWritesAreIgnored := by
  intro s off v rest ho hi hoff
  have hdrop : dropInput s = { s with inputs := rest } := by rw [dropInput, hi, List.tail_cons]
  rw [step_of_input ho hi, hdrop]
  exact hostWrite_of_ne_cmd hoff v _

/-! ## R180, R181: NOP and WAIT -/

/-- NOP has no elementary step. -/
theorem exec_nop (s : State) : exec .nop s = .next s := exec_eq_runPrims .nop s

/-- WAIT is its one wait. -/
theorem exec_wait (n : BitVec 12) (s : State) :
    exec (.wait n) s = .next { s with trace := s.trace ++ [.wait n.toNat] } := exec_eq_runPrims (.wait n) s

/-- Settles O21: 0x0000 is the word of NOP, and of the character 0x00; the other words of OP 0 have a reserved bit
set. -/
theorem nopChangesNothing : Obligations.NopChangesNothing := by
  refine ⟨exec_nop, decode_encode (i := .nop) rfl rfl, fun s w hs hlow hhigh => ?_,
    decode_encode (i := .putsChar 0x00#8 0x00#8) rfl rfl⟩
  exact acceptWord_of_hasReservedBits hs (.inl ⟨by omega, by omega⟩)

/-- One more wait adds its lower bound. -/
theorem waitUnits_append_wait (es : List Event) (n : Nat) :
    waitUnits (es ++ [.wait n]) = waitUnits es + n := by
  simp [waitUnits, eventUnits]

/-- Settles O22: a WAIT is one wait in the observations, and the word of WAIT has no reserved bit. -/
theorem waitOnlyHoldsTheBlock : Obligations.WaitOnlyHoldsTheBlock := by
  refine fun s n => ⟨exec_wait n s, decode_encode (i := .wait n) rfl rfl, fun m t u ht hu => ?_⟩
  cases (exec_wait n s).symm.trans ht
  cases (exec_wait m _).symm.trans hu
  rw [waitUnits_append_wait, waitUnits_append_wait]

end Sys2Proof.Machine

/-! The error action and the absence of traps (spec/60_exceptions.md): what a rejected word does to the state (R201,
R202), and that no step stops the block (R200, R208). -/

namespace Sys2Proof.Machine

/-! ## R201, R202: the error action -/

/-- `raise Error(cause)` as R201 writes it: CAUSE is taken while ERR is 0, and ERR is set. -/
theorem raiseError_eq (c : BitVec 4) (s : State) :
    raiseError c s = { s with cause := if s.err = false then c else s.cause, err := true } := by
  cases h : s.err with
  | true => simp [raiseError, h]
  | false => simp [raiseError, h]

/-- Settles O15: the step accepts the word, a rejected word takes the error action, and each kind of rejection has
its own cause code. -/
theorem rejectedWordKeepsTheFirstCause : Obligations.RejectedWordKeepsTheFirstCause := by
  intro s w rest e ho hr hi hd
  have hreject : decode (inPayload { s with inputs := rest }) w = .error e := hd
  rw [step_of_write ho hr hi, acceptWord_of_error hreject, raiseError_eq]
  cases e with
  | reservedOp => rfl
  | reservedBits => rfl
  | putsTooLong => rfl

/-! ## R200, R208: no trap and no access that is refused -/

/-- A word written to CMD is run or rejected, and both answer a next state. -/
theorem acceptWord_answers_next (w : Word) (s : State) : ∃ t, acceptWord w s = .next t := by
  rcases acceptWord_cases w s with ⟨i, -, h⟩ | ⟨e, -, h⟩
  · exact ⟨_, h⟩
  · exact ⟨_, h⟩

/-- The same for a write that is paused. -/
theorem acceptPaused_answers_next (w : Word) (k : Nat) (s : State) : ∃ t, acceptPaused w k s = .next t := by
  rcases acceptPaused_cases w k s with ⟨i, -, h⟩ | ⟨e, -, h⟩
  · exact ⟨_, h⟩
  · exact ⟨_, h⟩

/-- A host write is ignored or is a word written to CMD (R53, R184). -/
theorem hostWrite_answers_next (off : Offset) (v : Word) (s : State) : ∃ t, hostWrite off v s = .next t := by
  unfold hostWrite
  split
  · exact ⟨s, rfl⟩
  · split
    · exact acceptWord_answers_next v s
    · exact ⟨s, rfl⟩

/-- Every host access is allowed (R208), and so is every RST level. -/
theorem takeInput_answers_next (x : Input) (s : State) : ∃ t, takeInput x s = .next t := by
  cases x with
  | read off => exact ⟨hostRead off s, rfl⟩
  | write off v => exact hostWrite_answers_next off v s
  | writePaused w k =>
    by_cases hr : s.rst = true
    · exact ⟨s, if_pos hr⟩
    · obtain ⟨t, ht⟩ := acceptPaused_answers_next w k s
      exact ⟨t, (if_neg hr).trans ht⟩
  | rst asserted =>
    cases asserted with
    | true => exact ⟨resetBlock true s, rfl⟩
    | false => exact ⟨releaseRst s, rfl⟩

/-- Settles O20: RST asserted resets, else an operation in progress ends, else the next input is taken, and with
none the block idles. -/
theorem everyStepAnswersNext : Obligations.EveryStepAnswersNext := by
  intro s
  by_cases hrst : ∃ rest, s.inputs = .rst true :: rest
  · obtain ⟨rest, hi⟩ := hrst
    exact ⟨_, step_of_rst_asserted hi⟩
  by_cases ho : s.op = []
  · cases hi : s.inputs with
    | nil => exact ⟨s, step_of_idle ho hi⟩
    | cons x rest =>
      rw [step_of_input ho hi]
      exact takeInput_answers_next x _
  · exact ⟨_, step_of_op ho fun rest hi => hrst ⟨rest, hi⟩⟩

end Sys2Proof.Machine

/-! Reset and hazards (spec/70_reset_and_hazards.md): what RST does to the block and to an operation in progress
(R230, R231), that INIT_DONE and errors gate nothing (R245), and how long each operation lasts (R247). -/

namespace Sys2Proof.Machine

/-! ## R230, R231: RST asserted and released -/

/-- Taking the first input leaves the others. -/
theorem dropInput_of_inputs {s : State} {x : Input} {rest : List Input} (hi : s.inputs = x :: rest) :
    dropInput s = { s with inputs := rest } := by
  rw [dropInput, hi, List.tail_cons]

/-- Settles O2: the first case of `advance`, which does not look at the operation in progress. -/
theorem assertedRstResetsAtOnce : Obligations.AssertedRstResetsAtOnce := by
  intro s rest hi
  rw [step_of_rst_asserted hi, dropInput_of_inputs hi]
  rfl

/-- Settles O3: a release is taken as an input, and resets where RST was asserted. -/
theorem releasedRstLeavesTheBlockIdle : Obligations.ReleasedRstLeavesTheBlockIdle := by
  intro s rest ho hi
  have hstep : step s = .next (releaseRst { s with inputs := rest }) := by
    rw [step_of_input ho hi, dropInput_of_inputs hi]
    rfl
  refine ⟨fun hr => ?_, fun hr => ?_⟩
  · have hrelease : releaseRst { s with inputs := rest } = resetBlock false { s with inputs := rest } :=
      if_pos hr
    rw [hstep, hrelease]
    rfl
  · have hrelease : releaseRst { s with inputs := rest } = { s with inputs := rest } :=
      if_neg (Bool.eq_false_iff.mp hr)
    rw [hstep, hrelease]

/-! ## R230: the block while RST is asserted -/

/-- With RST released nothing is claimed. -/
theorem heldQuiet_of_released {s : State} (hr : s.rst = false) : HeldQuiet s :=
  fun h => absurd (hr.symm.trans h) Bool.false_ne_true

theorem heldQuiet_resetBlock (b : Bool) (s : State) : HeldQuiet (resetBlock b s) := fun _ => rfl

/-- What the host does next and what was observed are outside the block. -/
theorem HeldQuiet.outside {s : State} (h : HeldQuiet s) (inputs : List Input) (trace : List Event) :
    HeldQuiet { s with inputs := inputs, trace := trace } :=
  fun hr => congrArg (fun u : State => { u with inputs := inputs, trace := trace }) (h hr)

/-- A block held in reset has no operation in progress. -/
theorem HeldQuiet.op_eq_nil {s : State} (h : HeldQuiet s) (hr : s.rst = true) : s.op = [] :=
  congrArg State.op (h hr)

/-- Running elementary steps leaves RST as it is. -/
theorem runPrims_rst (ms : List Prim) (s : State) : (runPrims ms s).rst = s.rst := by
  obtain ⟨-, hrst, -⟩ := runPrims_untouched ms s
  exact hrst

/-- Settles O41: while RST is asserted nothing is in progress and no word is taken, so a step can only reset, or
touch what is outside the block. -/
theorem everyStepKeepsAHeldBlockQuiet : Obligations.EveryStepKeepsAHeldBlockQuiet := by
  intro s t hs hstep
  cases step_cases hstep with
  | reset => exact heldQuiet_resetBlock true _
  | finish hop =>
    refine heldQuiet_of_released ((runPrims_rst s.op s).trans (Bool.eq_false_iff.mpr fun hr => ?_))
    exact hop (hs.op_eq_nil hr)
  | idle => exact hs
  | read | ignored => exact hs.outside _ _
  | release =>
    unfold releaseRst
    split
    · exact heldQuiet_resetBlock false _
    · exact hs.outside _ _
  | run w rest i ho hr | pause w k rest i ho hr => exact heldQuiet_of_released ((runPrims_rst _ _).trans hr)
  | reject x w rest e ho hr => exact heldQuiet_of_released hr

/-! ## R231: an operation cut by RST -/

/-- A decoded word that is paused begins its operation. -/
theorem acceptPaused_of_ok {s : State} {w : Word} {i : Instr} (k : Nat)
    (hd : decode (inPayload s) w = .ok i) :
    acceptPaused w k s = .next (beginOp (programOf i s) k s) := by
  rw [acceptPaused, hd]

/-- What a program shows is what its first `k` steps show and then what the others show. -/
theorem runPrims_trace_split (ms : List Prim) (k : Nat) (s : State) :
    ∃ done left : List Event, (runPrims (ms.take k) s).trace = s.trace ++ done ∧
      (runPrims ms s).trace = s.trace ++ done ++ left := by
  obtain ⟨done, hdone⟩ := runPrims_trace (ms.take k) s
  obtain ⟨left, hleft⟩ := runPrims_trace (ms.drop k) (runPrims (ms.take k) s)
  refine ⟨done, left, hdone, ?_⟩
  rw [← hdone, ← hleft, ← runPrims_append, List.take_append_drop]

/-- A write paused after `k` steps and then RST asserted: two steps, the second of which resets. -/
theorem run_of_cut {s : State} {w : Word} {k : Nat} {rest : List Input} {i : Instr} (ho : s.op = [])
    (hr : s.rst = false) (hi : s.inputs = .writePaused w k :: .rst true :: rest)
    (hd : decode (inPayload s) w = .ok i) :
    let s' : State := { s with inputs := .rst true :: rest }
    Host.Core.run Sys2Proof.core 2 s =
      .next (resetBlock true { beginOp (programOf i s') k s' with inputs := rest }) := by
  intro s'
  have hpaused : acceptPaused w k s' = .next (beginOp (programOf i s') k s') := acceptPaused_of_ok k hd
  have hbegin : step s = .next (beginOp (programOf i s') k s') := (step_of_writePaused ho hr hi).trans hpaused
  have hinputs : (beginOp (programOf i s') k s').inputs = .rst true :: rest := acceptPaused_inputs hpaused
  rw [run_succ hbegin, run_succ (step_of_rst_asserted hinputs), run_zero, dropInput_of_inputs hinputs]

/-- Settles O4: the first step shows the beginning of the operation, and the second one only RST. -/
theorem rstCutsAnOperationShort : Obligations.RstCutsAnOperationShort := by
  intro s w k rest i ho hr hi hd
  obtain ⟨done, left, hdone, hwhole⟩ :=
    runPrims_trace_split (programOf i { s with inputs := .rst true :: rest }) k
      { s with inputs := .rst true :: rest }
  exact ⟨_, _, done, left, run_of_cut ho hr hi hd, ⟨hdone, exec_eq_runPrims i _⟩, hwhole,
    congrArg (· ++ [Event.rst true]) hdone, rfl, rfl, rfl, rfl, rfl, rfl, rfl, rfl, rfl, rfl, rfl, rfl, rfl, rfl,
    rfl, rfl⟩

/-! ## R245, R201: INIT_DONE, ERR and CAUSE gate nothing -/

/-- The state with other values of INIT_DONE, ERR and CAUSE. -/
def withFlags (done err : Bool) (cause : BitVec 4) (s : State) : State :=
  { s with initDone := done, err := err, cause := cause }

/-- An elementary step reads none of the three and writes none but INIT_DONE, which it can only set. -/
theorem runPrim_withFlags (m : Prim) (done err : Bool) (cause : BitVec 4) (s : State) :
    runPrim m (withFlags done err cause s) =
      withFlags (done || decide (.setInitDone = m)) err cause (runPrim m s) := by
  cases m with
  | setInitDone => exact congrArg (withFlags · err cause (setInitDone s)) (Bool.or_true done).symm
  | _ => rw [decide_eq_false nofun, Bool.or_false]; rfl

theorem runPrims_withFlags (ms : List Prim) (done err : Bool) (cause : BitVec 4) (s : State) :
    runPrims ms (withFlags done err cause s) =
      withFlags (done || decide (.setInitDone ∈ ms)) err cause (runPrims ms s) := by
  induction ms generalizing done s with
  | nil => simp
  | cons m ms ih => simp [runPrim_withFlags, ih, Bool.or_assoc]

/-- Which elementary steps an operation has does not depend on the three. -/
theorem programOf_withFlags (i : Instr) (done err : Bool) (cause : BitVec 4) (s : State) :
    programOf i (withFlags done err cause s) = programOf i s := by
  cases i <;> rfl

theorem setInitDone_not_mem_sendProgram (p : Params) (v : Byte) (rs : Bool) :
    Prim.setInitDone ∉ sendProgram p v rs := by
  simp [sendProgram, nibProgram]

theorem setInitDone_not_mem_wrapProgram (p : Params) (due : Bool) :
    Prim.setInitDone ∉ wrapProgram p due := by
  cases due
  · exact List.not_mem_nil
  · exact setInitDone_not_mem_sendProgram p Config.wrapCmd false

/-- LCD.INIT is the one operation that sets INIT_DONE (R136). -/
theorem setInitDone_mem_programOf (i : Instr) (s : State) :
    Prim.setInitDone ∈ programOf i s ↔ i = .lcdInit := by
  cases i with
  | lcdInit => simp [programOf, lcdInitProgram]
  | nop => simp [programOf, nopProgram]
  | wait n => simp [programOf, waitProgram]
  | lcdCmd v => simp [programOf, lcdCmdProgram, setInitDone_not_mem_sendProgram]
  | lcdData v => simp [programOf, lcdDataProgram, setInitDone_not_mem_sendProgram]
  | lcdPuts len => by_cases h : len = 0#6 <;> simp [programOf, lcdPutsProgram, h]
  | keyScan r => simp [programOf, keyScanProgram]
  | putsChar c ignored =>
    simp [programOf, putsCharProgram, setInitDone_not_mem_sendProgram, setInitDone_not_mem_wrapProgram]

/-- Settles O49: with other flags the same program runs, and it carries them along. -/
theorem initDoneAndErrorsGateNothing : Obligations.InitDoneAndErrorsGateNothing := by
  intro i s t done err cause h
  cases (exec_eq_runPrims i s).symm.trans h
  have hprogram := programOf_withFlags i done err cause s
  have hrun := runPrims_withFlags (programOf i s) done err cause s
  rw [decide_eq_decide.mpr (setInitDone_mem_programOf i s)] at hrun
  exact (exec_eq_runPrims i (withFlags done err cause s)).trans
    (congrArg Host.Outcome.next (hprogram ▸ hrun))

/-! ## R247: how long each operation lasts -/

/-- The lower bounds of consecutive observations add (R181, R185). -/
@[simp] theorem waitUnits_append (es fs : List Event) : waitUnits (es ++ fs) = waitUnits es + waitUnits fs := by
  simp [waitUnits]

theorem waitUnits_flatMap {α : Type} (ks : List α) (f : α → List Event) :
    waitUnits (ks.flatMap f) = (ks.map fun k => waitUnits (f k)).sum := by
  induction ks with
  | nil => rfl
  | cons k ks ih => rw [List.flatMap_cons, waitUnits_append, ih, List.map_cons, List.sum_cons]

/-- One nibble takes N (R247). -/
@[simp] theorem waitUnits_nibEvents (p : Params) (rs : Bool) (n : Nibble) :
    waitUnits (nibEvents p rs n) = nibbleUnits p := by
  simp [waitUnits, nibEvents, eventUnits, nibbleUnits, Nat.add_assoc]

/-- One SEND takes S(v, rs) (R247). -/
theorem waitUnits_byteEvents_settle (p : Params) (v : Byte) (rs : Bool) :
    waitUnits (byteEvents p rs v (settle p v rs)) = sendUnits p v rs := by
  rw [byteEvents, waitUnits_append_wait, waitUnits_append, waitUnits_nibEvents, waitUnits_nibEvents, sendUnits,
    Nat.two_mul]

theorem waitUnits_sendProgram (p : Params) (v : Byte) (rs : Bool) (s : State) :
    waitUnits (runPrims (sendProgram p v rs) s).trace = waitUnits s.trace + sendUnits p v rs := by
  rw [runPrims_sendProgram, waitUnits_append, waitUnits_byteEvents_settle]

/-- PUTS.CHAR wraps on one side at most, so it sends one or two bytes. -/
theorem waitUnits_wraps (s : State) (wrap : List Event) :
    waitUnits (if wrapsBefore s then wrap else []) + waitUnits (if wrapsAfter s then wrap else []) =
      if wrapsBefore s || wrapsAfter s then waitUnits wrap else 0 := by
  have hnil : waitUnits [] = 0 := rfl
  cases hb : wrapsBefore s with
  | false => cases wrapsAfter s <;> simp [hnil]
  | true =>
    have ha : wrapsAfter s = false := Bool.eq_false_iff.mpr fun ha => not_wrapsBefore_and_wrapsAfter s ⟨hb, ha⟩
    simp [ha, hnil]

/-- Every program's waits add up to R247's minimum. -/
theorem waitUnits_programOf (i : Instr) (s : State) :
    waitUnits (runPrims (programOf i s) s).trace = waitUnits s.trace + minDuration i s := by
  cases i with
  | nop => rfl
  | wait n => exact waitUnits_append_wait s.trace n.toNat
  | lcdCmd v => exact waitUnits_sendProgram s.params v false s
  | lcdData v => exact waitUnits_sendProgram s.params v true s
  | lcdInit =>
    rw [programOf, runPrims_lcdInitProgram, waitUnits_append, waitUnits_append_wait, waitUnits_flatMap,
      Nat.add_assoc]
    simp only [waitUnits_append_wait, waitUnits_byteEvents_settle]
    rfl
  | lcdPuts len =>
    rw [programOf, runPrims_lcdPutsProgram]
    split <;> rfl
  | keyScan r =>
    have hscan : waitUnits [.row (onehot4 r), .wait s.params.tRow, .sample r (nextSample s)] = s.params.tRow := by
      simp [waitUnits, eventUnits]
    have hrun := Host.Outcome.next.inj ((exec_eq_runPrims (.keyScan r) s).symm.trans (exec_keyScan r s))
    rw [hrun, waitUnits_append, hscan]
    rfl
  | putsChar c ignored =>
    have hwraps := waitUnits_wraps s
      (byteEvents s.params false Config.wrapCmd (settle s.params Config.wrapCmd false))
    rw [waitUnits_byteEvents_settle] at hwraps
    rw [programOf, runPrims_putsCharProgram, minDuration, ← hwraps]
    simp only [waitUnits_append, waitUnits_byteEvents_settle]
    omega

/-- Settles O48: an operation is its program, whose waits are counted above. -/
theorem operationsLastTheirMinimumTimes : Obligations.OperationsLastTheirMinimumTimes := by
  intro i s t h
  cases (exec_eq_runPrims i s).symm.trans h
  exact waitUnits_programOf i s

end Sys2Proof.Machine
